-- ==== Sys2Proof/Word.lean ====
section
/-! DEFINITION. The engine's data word (spec/00_scope.md R12): 32 bits, unsigned everywhere (R14). -/

namespace Sys2Proof

/-- A 32-bit unsigned value: a ring word, a carry, an entropy word, response data (R12, glossary "word"). -/
abbrev Word := BitVec 32

end Sys2Proof
end

