-- ==== Sys2Proof/Config.lean ====
section
/-! DEFINITION. What is fixed when an engine is built (spec/00_scope.md R8 to R11, spec/93_implementation_defined.md I3 to
I5) and the free values that stand for everything the spec calls unspecified (spec/92_eei_decisions.md D20). -/

namespace Sys2Proof

/-- The multiplier `a` (R10): a constant of the hardware, not a parameter. -/
def Config.multiplier : Nat := 18782

/-- The subtrahend `m` (R11): a constant of the hardware, not a parameter. -/
def Config.subtrahend : Word := 0xFFFFFFFE#32

/-- LATENCY_<cmd> (spec/70_reset_and_hazards.md R211, I5): for each command, how many cycles its response waits beyond
the first cycle in which R86 allows it. DESIGN CHOICE (log 2): one constant per command. No rule depends on it. -/
structure Latency where
  read : Nat
  advance : Nat
  reset : Nat
  construct : Nat
deriving DecidableEq, Repr

/-- The build-time parameters of one engine. The two bounds are the admitted ranges of R8 and R9, so that no engine
with other parameters can be written down (I3 and I4: `refuse`). `C_MAX <= 2^32 - 1` holds by the width. -/
structure Build where
  /-- `LOG2_CYCLE` (R8). -/
  log2Cycle : Nat
  /-- `C_MAX`, the exclusive upper bound on the seeded carry (R9). -/
  cMax : Word
  latency : Latency
  log2Cycle_pos : 1 ≤ log2Cycle
  cMax_pos : 1 ≤ cMax.toNat
deriving DecidableEq, Repr

/-- `CYCLE = 2^LOG2_CYCLE` (R8), the number of ring words. -/
def Build.cycle (b : Build) : Nat := 2 ^ b.log2Cycle

/-- DESIGN CHOICE (log 2): no cycle beyond the first, for every command. -/
def Config.noExtraCycles : Latency := ⟨0, 0, 0, 0⟩

/-- The canonical engine: `LOG2_CYCLE = 12` (R8), `C_MAX = 809430660` (R9). -/
def Config.canonical : Build := ⟨12, 809430660#32, Config.noExtraCycles, by decide, by decide⟩

/-! The free values. Each is indexed by the number of the draw (`State.freeCount`), so two draws share no value that a
proof could use; nothing constrains any of them (spec/10_state.md R48, spec/60_exceptions.md R172, D20). -/

/-- Word `i` of `ring` after draw `n`. -/
opaque Config.openRingWord (n i : Nat) : Word

/-- Word `i` of `initial_ring` after draw `n`. -/
opaque Config.openInitialRingWord (n i : Nat) : Word

/-- `carry` after draw `n`. -/
opaque Config.openCarry (n : Nat) : Word

/-- `initial_carry` after draw `n`. -/
opaque Config.openInitialCarry (n : Nat) : Word

/-- `cursor`, of `k` bits, after draw `n`. -/
opaque Config.openCursor (k n : Nat) : BitVec k

/-- The hidden fill index of `CONSTRUCT` (spec/10_state.md R47), of `k` bits, after draw `n`. -/
opaque Config.openFillIndex (k n : Nat) : BitVec k

/-- The accepted carry candidate of a `CONSTRUCT` in progress (log 18), after draw `n`. -/
opaque Config.openHeldCarry (n : Nat) : Word

end Sys2Proof
end

