-- ==== Sys2Proof/Machine/State.lean ====
section
/-! DEFINITION. The state of one engine as plain data (spec/10_state.md R30, R47), the input ports it samples
(spec/30_encoding.md R80), and the state after power-on reset (R48). -/

namespace Sys2Proof.Machine

open Sys2Proof

/-- The engine never stops with a fault: "The engine never traps" (spec/60_exceptions.md R170). No constructor, so no
step of the model can answer one (DEDUCED, log 20). -/
inductive Fault where
deriving DecidableEq, Repr

/-- Why a step gives no meaning. -/
inductive Refusal where
  /-- An instruction without a meaning. Nothing raises it: every command has its meaning. Safe: the run stops. -/
  | notModelled (mnemonic : String)
deriving DecidableEq, Repr

/-- What the entropy source answers to one draw (spec/00_scope.md R17): a word, or a failure. -/
inductive Answer where
  | word (v : Word)
  | fail
deriving DecidableEq, Repr

/-- The input ports as sampled at one rising edge of `clk` (R80). The defaults are the idle pins: no power-on reset and
nothing presented. -/
structure Pins where
  rstN : Bool := true
  cmdValid : Bool := false
  cmdOp : BitVec 2 := 0b00#2
  rspReady : Bool := false
  entValid : Bool := false
  entData : Word := 0#32
  entErr : Bool := false
deriving DecidableEq, Repr

/-- The response status codes the engine produces (R87). Code `11` is reserved and never produced
(spec/93_implementation_defined.md I9). -/
inductive RspStatus where
  | ok
  | notSeeded
  | entropyFail
deriving DecidableEq, Repr

/-- Which step of `CONSTRUCT` is running (spec/10_state.md R47): drawing the carry, filling the ring, or done. It is
`done` too when no `CONSTRUCT` is in progress (DESIGN CHOICE, log 10). -/
inductive Progress where
  | drawCarry
  | fillRing
  | done
deriving DecidableEq, Repr

/-- The storage of an engine, for `LOG2_CYCLE = k`: the document's `GeneratorState` (R30 to R35), and of a `CONSTRUCT` in
progress the hidden index of the next ring word to fill (R47) and the accepted carry candidate, which goes to both carries at
completion (spec/00_scope.md R16; a register of the model's own, DESIGN CHOICE, log 18). Every index of `k` bits names a ring
word (R62). -/
structure Storage (k : Nat) where
  ring : Vector Word (2 ^ k)
  initialRing : Vector Word (2 ^ k)
  carry : Word
  initialCarry : Word
  cursor : BitVec k
  fillIndex : BitVec k
  heldCarry : Word
deriving DecidableEq, Repr

/-- Everything the engine holds, and after it the model's own input data. -/
structure State where
  /-- The build-time parameters (R44); no step changes them. DESIGN CHOICE (log 1): they stand in the state. -/
  build : Build
  /-- R31 to R35, and the fill index of R47. -/
  storage : Storage build.log2Cycle
  /-- `SEEDED` (R40). -/
  seeded : Bool
  /-- `FATAL` (R41). -/
  fatal : Bool
  /-- `BUSY` (R42). -/
  busy : Bool
  /-- Which step of `CONSTRUCT` is running (R47). -/
  progress : Progress
  /-- The status of the pending response (R47, R86). -/
  rspStatus : RspStatus
  /-- The data of the pending response (R47, R86). -/
  rspData : Word
  /-- The cycles still to pass before `rsp_valid` rises (R211, log 2). -/
  wait : Nat
  /-- The MODEL's own: the number of the next draw of unspecified storage (log 5). -/
  freeCount : Nat
  /-- The MODEL's own: what the entropy source answers at once to the draws of an atomic `CONSTRUCT` (R6, R18, log 6). -/
  entropy : List Answer
  /-- The MODEL's own: the samples of the input ports at the coming clock edges (R80, log 7). -/
  inputs : List Pins
deriving DecidableEq, Repr

/-- Storage that the spec calls unspecified (R48, spec/60_exceptions.md R172): every field a free value, of draw
`n` (spec/92_eei_decisions.md D20, log 3). -/
def Storage.unspecified (k n : Nat) : Storage k where
  ring := Vector.ofFn fun i => Config.openRingWord n i.val
  initialRing := Vector.ofFn fun i => Config.openInitialRingWord n i.val
  carry := Config.openCarry n
  initialCarry := Config.openInitialCarry n
  cursor := Config.openCursor k n
  fillIndex := Config.openFillIndex k n
  heldCarry := Config.openHeldCarry n

/-- The power-on state of R48 for a build: `SEEDED`, `FATAL` and `BUSY` 0, the storage unspecified (draw `n`), no command
in progress. The pending response's registers are DESIGN CHOICE (log 9); nothing shows them. -/
def State.powerOn (b : Build) (n : Nat) (entropy : List Answer) (inputs : List Pins) : State where
  build := b
  storage := Storage.unspecified b.log2Cycle n
  seeded := false
  fatal := false
  busy := false
  progress := .done
  rspStatus := .ok
  rspData := 0#32
  wait := 0
  freeCount := n + 1
  entropy := entropy
  inputs := inputs

/-- The canonical engine right after power-on reset (R48, spec/70_reset_and_hazards.md R200), with no input yet. -/
def State.reset : State := State.powerOn Config.canonical 0 [] []

end Sys2Proof.Machine
end

