-- ==== Sys2Proof/Machine/Ops.lean ====
section
/-! DEFINITION. The operations the commands share: reading and writing ring words, ending a command with a response,
raising an error, power-on reset. -/

namespace Sys2Proof.Machine

open Sys2Proof

/-- `CYCLE` of this engine (spec/00_scope.md R8). -/
def State.cycle (s : State) : Nat := s.build.cycle

/-- `ring[i]` (R16). -/
def Storage.readRing {k : Nat} (st : Storage k) (i : BitVec k) : Word := st.ring[i.toNat]'i.isLt

/-- `ring[i] <- v` (R16): every other word keeps its value. -/
def Storage.writeRing {k : Nat} (st : Storage k) (i : BitVec k) (v : Word) : Storage k :=
  { st with ring := st.ring.set i.toNat v i.isLt }

/-- `initial_ring[i] <- v` (R16). -/
def Storage.writeInitialRing {k : Nat} (st : Storage k) (i : BitVec k) (v : Word) : Storage k :=
  { st with initialRing := st.initialRing.set i.toNat v i.isLt }

/-- The index `CYCLE - 1`: all `LOG2_CYCLE` bits set (R33, spec/10_state.md R38). -/
def lastIndex (k : Nat) : BitVec k := BitVec.allOnes k

/-- The state with other storage: what a command's writes to R31 to R35 make of it, everything else kept. -/
def State.withStorage (s : State) (st : Storage s.build.log2Cycle) : State := { s with storage := st }

/-- `respond(status, data)` (spec/00_scope.md R17, spec/30_encoding.md R86): the command's work is done and its response
is pending; `rsp_valid` rises after `wait` further cycles (spec/70_reset_and_hazards.md R211). `BUSY` is 1 until the
response is taken (R42). -/
def State.respond (s : State) (status : RspStatus) (data : Word) (wait : Nat) : State :=
  { s with busy := true, progress := .done, rspStatus := status, rspData := data, wait := wait }

/-- The errors a command can meet (spec/60_exceptions.md R170): exactly two. -/
inductive CommandError where
  /-- R171. -/
  | notSeeded
  /-- R172. -/
  | entropyFail
deriving DecidableEq, Repr

/-- Ending a command with an error: the engine's whole counterpart of taking an exception. It saves nothing and changes
no control (R170, R178). `NOT_SEEDED` changes no architectural state (R171). `ENTROPY_FAIL` leaves `SEEDED` 0, sets
`FATAL`, and leaves the storage unspecified: free values of a new draw (R172, log 4). Both answer data 0 (R86). -/
def State.raise (s : State) (e : CommandError) (wait : Nat) : State :=
  match e with
  | .notSeeded => s.respond .notSeeded 0#32 wait
  | .entropyFail =>
    ({ s with
        storage := Storage.unspecified s.build.log2Cycle s.freeCount
        freeCount := s.freeCount + 1
        seeded := false
        fatal := true } : State).respond .entropyFail 0#32 wait

/-- The check that READ, ADVANCE and RESET make at acceptance, and their only one (R171, R176 item 2): where
`SEEDED = 1` the command gives `t`, otherwise it raises `NOT_SEEDED`. -/
def State.ifSeeded (s : State) (wait : Nat) (t : State) : State :=
  if s.seeded then t else s.raise .notSeeded wait

/-- A rising edge with `rst_n = 0` (spec/70_reset_and_hazards.md R200, R201): the power-on state of R48, the storage a new
draw of unspecified values, a command in progress abandoned without a response and without consuming an answer. -/
def State.powerOnReset (s : State) : State :=
  State.powerOn s.build s.freeCount s.entropy s.inputs

/-- The response is taken: `BUSY` returns to 0 and `rsp_valid` falls (R42, R86). -/
def State.takeResponse (s : State) : State := { s with busy := false }

end Sys2Proof.Machine
end

