-- ==== Sys2Proof/Machine/Advance.lean ====
section
/-! DEFINITION. `ADVANCE` (spec/42_advance.md): one multiply-with-carry step. -/

namespace Sys2Proof.Machine

open Sys2Proof

/-- `lo32(t) = t mod 2^32` (spec/00_scope.md R15). -/
def lo32 (t : Nat) : Word := BitVec.ofNat 32 (t % 2 ^ 32)

/-- `hi32(t) = t >> 32`, for `t < 2^64` (spec/00_scope.md R15). -/
def hi32 (t : Nat) : Word := BitVec.ofNat 32 (t >>> 32)

/-- Step 2 (R143): `t = a * q + carry`, exact. -/
def mwcProduct (q carry : Word) : Nat := Config.multiplier * q.toNat + carry.toNat

/-- Step 4 before the correction (R144): `lo32(t) +_32 hi32(t)`, which may wrap. -/
def mwcSum (t : Nat) : Word := lo32 t + hi32 t

/-- Step 4's test (R144): the 32-bit addition wrapped. -/
def mwcWraps (t : Nat) : Bool := decide (mwcSum t < hi32 t)

/-- Steps 2 to 4 (R143, R144): the corrected `x` and the new carry `c`. -/
def mwcStep (q carry : Word) : Word × Word :=
  let t := mwcProduct q carry
  if mwcWraps t then (mwcSum t + 1#32, hi32 t + 1#32) else (mwcSum t, hi32 t)

/-- Steps 1 to 6 on the storage (R141): the word after the cursor is read, then overwritten with `m -_32 x`. -/
def Storage.advance {k : Nat} (st : Storage k) : Storage k :=
  let cursor' := st.cursor + 1#k
  let r := mwcStep (st.readRing cursor') st.carry
  { st.writeRing cursor' (Config.subtrahend - r.1) with carry := r.2, cursor := cursor' }

/-- `ADVANCE` (R141). -/
def execAdvance (s : State) : Host.Outcome State Fault Refusal :=
  .next (s.ifSeeded s.build.latency.advance
    ((s.withStorage s.storage.advance).respond .ok 0#32 s.build.latency.advance))

end Sys2Proof.Machine
end

