-- ==== Sys2Proof/Machine/Operands.lean ====
section
/-! DEFINITION. The data that enters with a command: none (spec/30_encoding.md R82). The only data that enters the engine
are the entropy answers of `CONSTRUCT`; this file reads one from the entropy channel's pins (R88, R89). -/

namespace Sys2Proof.Machine

open Sys2Proof

/-- The answer a sample of the entropy pins carries: `Fail` where `ent_err = 1`, whatever `ent_data` is (R88, R89,
spec/60_exceptions.md R176 item 3), and the word otherwise, bit for bit (spec/20_memory.md R60). -/
def Pins.answer (p : Pins) : Answer :=
  if p.entErr then .fail else .word p.entData

end Sys2Proof.Machine
end

