-- ==== Sys2Proof/Machine/Construct.lean ====
section
/-! DEFINITION. `CONSTRUCT` (spec/40_construct_reset.md R100 to R109): the carry phase, the ring phase, completion, and
the failure at any draw. The work is cut at the draws, because a draw may wait without bound
(spec/70_reset_and_hazards.md R209). -/

namespace Sys2Proof.Machine

open Sys2Proof

/-- A carry candidate is accepted exactly where it is below `C_MAX`, unsigned and strict (R103). -/
def acceptsCarry (b : Build) (v : Word) : Bool := decide (v.toNat < b.cMax.toNat)

/-- The accepted candidate (R103) is held for the two carries, which the command writes when it completes
(spec/00_scope.md R16), and the ring is filled from index 0 (R104). DESIGN CHOICE (log 18): the register that holds it. -/
def Storage.holdCarry {k : Nat} (st : Storage k) (v : Word) : Storage k :=
  { st with heldCarry := v, fillIndex := 0#k }

/-- A ring word goes to both rings at the fill index, which moves to the next one (R104). -/
def Storage.fill {k : Nat} (st : Storage k) (v : Word) : Storage k :=
  { (st.writeRing st.fillIndex v).writeInitialRing st.fillIndex v with fillIndex := st.fillIndex + 1#k }

/-- The word that would be filled next is the last one. -/
def Storage.fillsLast {k : Nat} (st : Storage k) : Bool := decide (st.fillIndex = lastIndex k)

/-- The writes that take effect together at completion (spec/00_scope.md R16): both carries the accepted candidate (R103),
the cursor on the last word (R105). The ring words stand already, each written at its draw (R104). -/
def Storage.commitConstruct {k : Nat} (st : Storage k) : Storage k :=
  { st with carry := st.heldCarry, initialCarry := st.heldCarry, cursor := lastIndex k }

/-- Completion (R105): the storage, `SEEDED`, `FATAL` and the response `OK` with data 0. -/
def State.completeConstruct (s : State) : State :=
  ({ s with
      storage := s.storage.commitConstruct
      seeded := true
      fatal := false } : State).respond .ok 0#32 s.build.latency.construct

/-- A drawn carry candidate (R103): kept, or rejected with nothing changed. -/
def State.drawCarryWord (s : State) (v : Word) : State :=
  if acceptsCarry s.build v then { s with storage := s.storage.holdCarry v, progress := .fillRing } else s

/-- A drawn ring word (R104), and completion after the last one (R105). -/
def State.drawRingWord (s : State) (v : Word) : State :=
  if s.storage.fillsLast then (s.withStorage (s.storage.fill v)).completeConstruct
  else s.withStorage (s.storage.fill v)

/-- What one consumed answer does to the `CONSTRUCT` in progress (R102): a failure ends it (R106, spec/60_exceptions.md
R172), a word goes to the phase that drew it. Where no draw is outstanding nothing happens. -/
def State.consume (s : State) (a : Answer) : State :=
  match s.progress, a with
  | .done, _ => s
  | .drawCarry, .fail => s.raise .entropyFail s.build.latency.construct
  | .fillRing, .fail => s.raise .entropyFail s.build.latency.construct
  | .drawCarry, .word v => s.drawCarryWord v
  | .fillRing, .word v => s.drawRingWord v

/-- Draw after draw from the answers at hand, until the command is done or the source has no answer yet. What is not
drawn stays with the source, in order (R70, R106, R107). -/
def State.drain : List Answer → State → State
  | [], s => { s with entropy := [] }
  | a :: rest, s => if s.progress = .done then { s with entropy := a :: rest } else State.drain rest (s.consume a)

/-- Acceptance of `CONSTRUCT` (R102): `SEEDED` is cleared and the carry phase begins. `FATAL`
keeps its value until the command ends (R16). -/
def State.beginConstruct (s : State) : State :=
  { s with seeded := false, busy := true, progress := .drawCarry }

/-- `CONSTRUCT` (R102), as one atomic command (R18) on the entropy answers at hand. Where they do not suffice the
command stays in progress, `BUSY`, with no response: the possible non-terminating run of R209, no fault (log 8). -/
def execConstruct (s : State) : Host.Outcome State Fault Refusal :=
  .next (State.drain s.entropy s.beginConstruct)

end Sys2Proof.Machine
end

