-- ==== Sys2Proof/Machine/Read.lean ====
section
/-! DEFINITION. `READ` (spec/41_read.md). -/

namespace Sys2Proof.Machine

open Sys2Proof

/-- `ring[cursor]`, the current output word (R33, R131). -/
def Storage.current {k : Nat} (st : Storage k) : Word := st.readRing st.cursor

/-- `READ` (R131). -/
def execRead (s : State) : Host.Outcome State Fault Refusal :=
  .next (s.ifSeeded s.build.latency.read (s.respond .ok s.storage.current s.build.latency.read))

end Sys2Proof.Machine
end

