-- ==== Sys2Proof/Machine/Reset.lean ====
section
/-! DEFINITION. `RESET` (spec/40_construct_reset.md R110 to R116), the snapshot restore. -/

namespace Sys2Proof.Machine

open Sys2Proof

/-- Every ring word, the carry and the cursor back to the snapshot (R111 to R113). -/
def Storage.restore {k : Nat} (st : Storage k) : Storage k :=
  { st with ring := st.initialRing, carry := st.initialCarry, cursor := lastIndex k }

/-- `RESET` (R111). -/
def execReset (s : State) : Host.Outcome State Fault Refusal :=
  .next (s.ifSeeded s.build.latency.reset
    ((s.withStorage s.storage.restore).respond .ok 0#32 s.build.latency.reset))

end Sys2Proof.Machine
end

