-- ==== Sys2Proof/Syntax.lean ====
section
/-! DEFINITION. The four commands (spec/30_encoding.md R81). No command has an operand (R82). -/

namespace Sys2Proof

/-- One constructor per row of spec/opcode_table.json. -/
inductive Instr where
  /-- `READ` (spec/41_read.md R131). -/
  | read
  /-- `ADVANCE` (spec/42_advance.md R141). -/
  | advance
  /-- `RESET`, the snapshot restore (spec/40_construct_reset.md R111); not the pin `rst_n`. -/
  | reset
  /-- `CONSTRUCT` (spec/40_construct_reset.md R102). -/
  | construct
deriving DecidableEq, Repr

end Sys2Proof
end

