-- ==== Sys2Proof/Machine/Dispatch.lean ====
section
/-! DEFINITION. The meaning of each command, one arm per constructor of `Instr`. -/

namespace Sys2Proof.Machine

open Sys2Proof

/-- One accepted command (spec/00_scope.md R18): the state after its work, its response pending. DEDUCED (log 16): that
`BUSY` is 0 is checked by the edge that accepts it. -/
def exec (i : Instr) (s : State) : Host.Outcome State Fault Refusal :=
  match i with
  | .read => Sys2Proof.Machine.execRead s
  | .advance => Sys2Proof.Machine.execAdvance s
  | .reset => Sys2Proof.Machine.execReset s
  | .construct => Sys2Proof.Machine.execConstruct s

end Sys2Proof.Machine
end

