-- ==== Sys2Proof/WellFormed.lean ====
section
/-! DEFINITION. What is well formed. A command has no field that a check could look at (spec/30_encoding.md R82, R90), so
every `Instr` is well formed; the checks are those on the build parameters (spec/00_scope.md R8, R9). -/

namespace Sys2Proof

/-- Every command is well formed: all four values of `cmd_op` are defined and none has an operand (R82, R90). -/
def Instr.wellFormed : Instr → Bool
  | .read => true
  | .advance => true
  | .reset => true
  | .construct => true

/-- The build with these parameters, or nothing where they are not admitted: `LOG2_CYCLE >= 1` (R8) and
`1 <= C_MAX <= 2^32 - 1` (R9). A ring length that is no power of two cannot be asked for (R8). -/
def Build.ofParams (log2Cycle cMax : Nat) (latency : Latency) : Option Build :=
  if h : 1 ≤ log2Cycle ∧ 1 ≤ cMax ∧ cMax < 2 ^ 32 then
    some
      { log2Cycle := log2Cycle
        cMax := BitVec.ofNat 32 cMax
        latency := latency
        log2Cycle_pos := h.1
        cMax_pos := by rw [BitVec.toNat_ofNat, Nat.mod_eq_of_lt h.2.2]; exact h.2.1 }
  else none

end Sys2Proof
end

