-- ==== Sys2Proof/Decode.lean ====
section
/-! DEFINITION. The command decoder and, after it, the encoder (spec/30_encoding.md R81, R83, R91). A command is the 2-bit
field `cmd_op`. Where a command is kept in bytes (a host program, the opcode table's words) it is bits 1..0 of one byte,
the other bits 0: DESIGN CHOICE (log 13), since the engine has no bytes (spec/20_memory.md R60, R61). -/

namespace Sys2Proof

/-- `decode(cmd_op)` (R91): total, because all four values are defined (R90). -/
def decode (op : BitVec 2) : Instr :=
  if op = 0b00#2 then .read
  else if op = 0b01#2 then .advance
  else if op = 0b10#2 then .reset
  else .construct

/-- Why bytes hold no command. -/
inductive DecodeError where
  /-- There is no byte left. Safe: nothing is run. -/
  | noCommand
  /-- A bit above `cmd_op[1:0]` is set, and a command has no such bit (R83). Safe: nothing is run. -/
  | bitsOutsideCommand
deriving DecidableEq, Repr

/-- The first command kept in a list of bytes, and the bytes after it. -/
def decodeBytes : List (BitVec 8) → Except DecodeError (Instr × List (BitVec 8))
  | [] => .error .noCommand
  | b :: rest =>
    if b.toNat < 4 then .ok (decode (b.setWidth 2), rest) else .error .bitsOutsideCommand

/-- The bytes of a table word: the byte with the word's bits 7..0, and a second one where higher bits are set. -/
def tableBytes (w : Nat) : List (BitVec 8) :=
  if w < 256 then [BitVec.ofNat 8 w] else [BitVec.ofNat 8 w, BitVec.ofNat 8 (w / 256)]

/-- The command the decoder reads from a word of spec/opcode_table.json; the bytes must hold that one command and
nothing else. `nbits` adds nothing: the bits above it are 0, and every bit below it is in `w`. -/
def decodeTableWord (_nbits w : Nat) : Option Instr :=
  match decodeBytes (tableBytes w) with
  | .ok (i, []) => if w < 256 then some i else none
  | .ok (_, _ :: _) => none
  | .error _ => none

/-- The value of `cmd_op[1:0]` that stands for a command (R81). -/
def encode : Instr → BitVec 2
  | .read => 0b00#2
  | .advance => 0b01#2
  | .reset => 0b10#2
  | .construct => 0b11#2

/-- The byte a command is kept in (log 13). -/
def encodeByte (i : Instr) : BitVec 8 := (encode i).setWidth 8

/-- The encoding of a command program: the list of `cmd_op` values in order (R92). -/
def encodeProgram (p : List Instr) : List (BitVec 2) := p.map encode

/-- A program kept in bytes, one command a byte (log 13). -/
def encodeProgramBytes (p : List Instr) : List (BitVec 8) := p.map encodeByte

/-- The program that a list of bytes holds, rejected by name where a byte is no command. -/
def decodeProgramBytes : List (BitVec 8) → Except DecodeError (List Instr)
  | [] => .ok []
  | b :: rest =>
    match decodeBytes [b], decodeProgramBytes rest with
    | .ok (i, _), .ok p => .ok (i :: p)
    | .error e, _ => .error e
    | .ok _, .error e => .error e

end Sys2Proof
end

