-- ==== Sys2Proof/Machine/Flags.lean ====
section
/-! DEFINITION. The status bits and codes: `status[2:0]` (spec/10_state.md R43) and `rsp_status[1:0]` (spec/30_encoding.md
R87). The engine computes no arithmetic flag. -/

namespace Sys2Proof.Machine

open Sys2Proof

/-- The code on `rsp_status[1:0]` (R87). -/
def RspStatus.code : RspStatus → BitVec 2
  | .ok => 0b00#2
  | .notSeeded => 0b01#2
  | .entropyFail => 0b10#2

/-- The output `status[2:0]`, `FATAL` in bit 2, `SEEDED` in bit 1, `BUSY` in bit 0 (R43, R80). -/
def State.status (s : State) : BitVec 3 :=
  BitVec.ofBool s.fatal ++ BitVec.ofBool s.seeded ++ BitVec.ofBool s.busy

end Sys2Proof.Machine
end

