-- ==== Sys2Proof/Machine/Interface.lean ====
section
/-! DEFINITION. The ports (spec/30_encoding.md R80) and the three handshakes (R84 to R89): the outputs as functions of the
state and `rst_n`, and what the sampled inputs make of one rising edge of `clk`. -/

namespace Sys2Proof.Machine

open Sys2Proof

/-- `cmd_ready` (R85): 1 exactly when `rst_n = 1` and `BUSY = 0`. -/
def State.cmdReady (s : State) (rstN : Bool) : Bool := rstN && !s.busy

/-- `rsp_valid` (R86): the command's work is done and its latency has passed; 0 while `rst_n = 0` (R200). -/
def State.rspValid (s : State) (rstN : Bool) : Bool :=
  rstN && s.busy && decide (s.progress = .done) && decide (s.wait = 0)

/-- `ent_ready` (R88): 1 only while a `CONSTRUCT` is in progress and needs its next draw; 0 while `rst_n = 0`
(R200). It does not pause between two draws (DESIGN CHOICE, log 11). -/
def State.entReady (s : State) (rstN : Bool) : Bool :=
  rstN && s.busy && decide (s.progress ≠ .done)

/-- A response: `rsp_status` and `rsp_data` (R86, R87). -/
structure Response where
  status : RspStatus
  data : Word
deriving DecidableEq, Repr

/-- The output ports of R80. `rsp` holds `rsp_status` and `rsp_data` where `rsp_valid = 1`; where it is 0 the spec gives
them no value and the model gives none (log 9). -/
structure Outputs where
  cmdReady : Bool
  rsp : Option Response
  entReady : Bool
  status : BitVec 3
deriving DecidableEq, Repr

/-- What the engine drives in a cycle, given the level of `rst_n` (R80, R200; DEDUCED, log 19). -/
def State.outputs (s : State) (rstN : Bool) : Outputs where
  cmdReady := s.cmdReady rstN
  rsp := if s.rspValid rstN then some ⟨s.rspStatus, s.rspData⟩ else none
  entReady := s.entReady rstN
  status := s.status

/-- The pins sampled at the next rising edge; with no sample left they idle (log 7). -/
def State.pins (s : State) : Pins := s.inputs.headD {}

/-- The state with that sample used up. -/
def State.nextEdge (s : State) : State := { s with inputs := s.inputs.tail }

/-- What one rising edge is. -/
inductive EdgeEvent where
  /-- `rst_n = 0` (R200): it overrides everything (spec/60_exceptions.md R176). -/
  | powerOn
  /-- A command is accepted (R84). -/
  | accept (op : BitVec 2)
  /-- The response is taken (R86). -/
  | take
  /-- An entropy answer is consumed (R88). -/
  | answer (a : Answer)
  /-- No handshake. -/
  | quiet
deriving DecidableEq, Repr

/-- The handshakes (R84, R86, R88, R200). At most one of the three channels can be ready, because `cmd_ready` needs
`BUSY = 0` and the other two need `BUSY = 1` and differ in the progress. -/
def State.edgeEvent (s : State) (p : Pins) : EdgeEvent :=
  if p.rstN = false then .powerOn
  else if s.cmdReady p.rstN && p.cmdValid then .accept p.cmdOp
  else if s.rspValid p.rstN && p.rspReady then .take
  else if s.entReady p.rstN && p.entValid then .answer p.answer
  else .quiet

/-- An edge without a handshake: a finished command's latency runs down (R211); otherwise everything is kept
(spec/60_exceptions.md R180, R86, R209). -/
def State.quietEdge (s : State) : State :=
  { s with wait := if s.busy && decide (s.progress = .done) then s.wait - 1 else s.wait }

/-- The sample at which the host presents the command held in a table word (log 12): nothing is presented where the
word is no command. -/
def commandPins (nbits w : Nat) : Pins :=
  match decodeTableWord nbits w with
  | some i => { cmdValid := true, cmdOp := encode i }
  | none => {}

/-- An engine ready for a command: none in progress. -/
def State.ready (s : State) : State := { s with busy := false, progress := .done }

end Sys2Proof.Machine
end

