-- ==== Sys2Proof/Machine/Step.lean ====
section
/-! DEFINITION. One step of the machine: one rising edge of `clk`. -/

namespace Sys2Proof.Machine

open Sys2Proof

/-- One rising edge of `clk` (spec/30_encoding.md R80): the next pin sample is used up, and what it makes of the edge
happens. An accepted command does its whole work here (spec/00_scope.md R18). -/
def step (s : State) : Host.Outcome State Fault Refusal :=
  match s.edgeEvent s.pins with
  | .powerOn => .next s.nextEdge.powerOnReset
  | .accept op => exec (decode op) s.nextEdge
  | .take => .next s.nextEdge.takeResponse
  | .answer a => .next (s.nextEdge.consume a)
  | .quiet => .next s.nextEdge.quietEdge

/-- `s` with the command of the table word `w` presented at the next edge, and the engine ready to accept it. -/
def State.withFetchWord (s : State) (nbits w : Nat) : State :=
  { s.ready with inputs := commandPins nbits w :: s.inputs }

end Sys2Proof.Machine
end

