-- ==== Sys2Proof/Machine/Assembler.lean ====
section
/-! DEFINITION. Command programs as text (spec/30_encoding.md R92): one upper-case mnemonic a line, `;` starts a comment.
There are no pseudo-instructions (R93). Text is a list of characters. DESIGN CHOICE (log 15): blanks around a mnemonic
are skipped, and a line with no mnemonic holds no command. -/

namespace Sys2Proof.Machine

open Sys2Proof

/-- Why a line is no command. -/
inductive AssemblerError where
  /-- What stands before the comment is none of the four mnemonics. Safe: nothing is assembled. -/
  | unknownMnemonic
deriving DecidableEq, Repr

/-- The mnemonic of a command (R81, R92). -/
def mnemonic : Instr → List Char
  | .read => ['R', 'E', 'A', 'D']
  | .advance => ['A', 'D', 'V', 'A', 'N', 'C', 'E']
  | .reset => ['R', 'E', 'S', 'E', 'T']
  | .construct => ['C', 'O', 'N', 'S', 'T', 'R', 'U', 'C', 'T']

/-- The command a mnemonic names (R92): upper case, letter for letter. -/
def ofMnemonic (m : List Char) : Option Instr :=
  if m = mnemonic .read then some .read
  else if m = mnemonic .advance then some .advance
  else if m = mnemonic .reset then some .reset
  else if m = mnemonic .construct then some .construct
  else none

/-- A space, a tab or a carriage return. -/
def isBlank (c : Char) : Bool := c = ' ' || c = '\t' || c = '\r'

/-- The lines of a text. -/
def splitLines : List Char → List (List Char)
  | [] => [[]]
  | c :: cs =>
    if c = '\n' then [] :: splitLines cs
    else
      match splitLines cs with
      | [] => [[c]]
      | l :: ls => (c :: l) :: ls

/-- A line without its comment (R92). -/
def beforeComment (l : List Char) : List Char := l.takeWhile fun c => !(c == ';')

/-- A line without the blanks at its two ends. -/
def trimBlanks (l : List Char) : List Char := ((l.dropWhile isBlank).reverse.dropWhile isBlank).reverse

/-- The commands of one line: one, or none where there is no mnemonic. -/
def assembleLine (l : List Char) : Except AssemblerError (List Instr) :=
  match trimBlanks (beforeComment l) with
  | [] => .ok []
  | m =>
    match ofMnemonic m with
    | some i => .ok [i]
    | none => .error .unknownMnemonic

/-- The commands of a list of lines, in order. -/
def assembleLines : List (List Char) → Except AssemblerError (List Instr)
  | [] => .ok []
  | l :: ls =>
    match assembleLine l, assembleLines ls with
    | .ok p, .ok q => .ok (p ++ q)
    | .error e, _ => .error e
    | .ok _, .error e => .error e

/-- The command program a text holds (R92); `encodeProgram` gives its encoding. -/
def assemble (src : List Char) : Except AssemblerError (List Instr) := assembleLines (splitLines src)

/-- A program written out, a comment after each command (R92). -/
def listing : List (Instr × List Char) → List Char
  | [] => []
  | (i, comment) :: p => mnemonic i ++ [' ', ';'] ++ comment ++ ['\n'] ++ listing p

end Sys2Proof.Machine
end

