-- ==== Sys2Proof/Safety.lean ====
section
/-! DEFINITION. The terms claims use: the architectural record of spec/10_state.md R30, the invariant, a command with its
response as one transaction (spec/00_scope.md R18), and runs of clock edges. The engine has no faults
(spec/60_exceptions.md R170), so every run is safe; what a claim can break is the invariant. -/

namespace Sys2Proof.Machine

open Sys2Proof

/-- `EngineState` of R30 without `BUSY`, with the parameters that size it. The rings as lists, the cursor as a number, so
that records of two states can be compared. -/
structure EngineState where
  log2Cycle : Nat
  cMax : Word
  ring : List Word
  initialRing : List Word
  carry : Word
  initialCarry : Word
  cursor : Nat
  seeded : Bool
  fatal : Bool
deriving DecidableEq, Repr

/-- The architectural record of a state (R30). -/
def State.engineState (s : State) : EngineState where
  log2Cycle := s.build.log2Cycle
  cMax := s.build.cMax
  ring := s.storage.ring.toList
  initialRing := s.storage.initialRing.toList
  carry := s.storage.carry
  initialCarry := s.storage.initialCarry
  cursor := s.storage.cursor.toNat
  seeded := s.seeded
  fatal := s.fatal

/-- The invariant of the engine. The first two clauses are spec/10_state.md R49; the others are what the command rules
imply of the model's state between two edges, some of them through the model's own choices, named at each. -/
structure State.Inv (s : State) : Prop where
  /-- R49 item 1. -/
  seeded_not_fatal : s.seeded = true → s.fatal = false
  /-- R49 item 2. -/
  seeded_snapshot_bound : s.seeded = true → s.storage.initialCarry.toNat < s.build.cMax.toNat
  /-- R38, R39: a seeded engine's carry is a seeded one or one an `ADVANCE` computed. -/
  seeded_carry_bound : s.seeded = true →
    s.storage.carry.toNat < s.build.cMax.toNat ∨ s.storage.carry.toNat ≤ Config.multiplier
  /-- R42, R47: no draw is outstanding between commands. The model's hidden progress (DESIGN CHOICE, log 10). -/
  idle_done : s.busy = false → s.progress = .done
  /-- R64: while a `CONSTRUCT` draws, `SEEDED = 0`. -/
  drawing_unseeded : s.progress ≠ .done → s.seeded = false
  /-- A `CONSTRUCT` that still draws has used all answers at hand. The model's own list (DESIGN CHOICE, log 6). -/
  drawing_waits : s.progress ≠ .done → s.entropy = []
  /-- In the ring phase the candidate that R103 accepted is held for the two carries. The model's own register (DESIGN
  CHOICE, log 18). -/
  filling_held : s.progress = .fillRing → s.storage.heldCarry.toNat < s.build.cMax.toNat
  /-- R104: the words filled so far, counted by the hidden fill index (log 10), stand in both rings. -/
  filling_ring : s.progress = .fillRing → ∀ j : Fin (2 ^ s.build.log2Cycle),
    j.val < s.storage.fillIndex.toNat → s.storage.ring[j.val] = s.storage.initialRing[j.val]
  /-- R86: an error response carries data 0. That the registers keep it with no response pending, and their reset values,
are the model's (DESIGN CHOICE, log 9). -/
  error_data_zero : s.rspStatus ≠ .ok → s.rspData = 0#32

/-- One command and its response as a transaction (R18): the response, and the state after it is taken. None where the
command is still in progress (it waits for the entropy source). -/
def transact (i : Instr) (s : State) : Option (Response × State) :=
  match exec i s with
  | .next t => if t.progress = .done then some (⟨t.rspStatus, t.rspData⟩, t.takeResponse) else none
  | .fault _ => none
  | .refused _ => none

/-- A sequence of commands is the sequential composition of their transactions (spec/20_memory.md R68). -/
def transactAll : List Instr → State → Option (List Response × State)
  | [], s => some ([], s)
  | i :: is, s =>
    match transact i s with
    | none => none
    | some (r, t) =>
      match transactAll is t with
      | none => none
      | some (rs, u) => some (r :: rs, u)

/-- `n` rising edges of `clk`. -/
def runEdges (n : Nat) (s : State) : Host.Outcome State Fault Refusal := Sys2Proof.core.run n s

/-- The response-channel latency parameter of a command (spec/70_reset_and_hazards.md R211). -/
def latencyOf (b : Build) : Instr → Nat
  | .read => b.latency.read
  | .advance => b.latency.advance
  | .reset => b.latency.reset
  | .construct => b.latency.construct

/-- The pins of an edge at which the host presents `op`. -/
def commandEdge (op : BitVec 2) : Pins := { cmdValid := true, cmdOp := op }

/-- The pins of an edge at which the entropy source presents an answer. -/
def answerEdge : Answer → Pins
  | .word v => { entValid := true, entData := v }
  | .fail => { entValid := true, entErr := true }

/-- The pins of edges at which the source presents answers, each after a number of idle edges. -/
def answerEdges : List (Nat × Answer) → List Pins
  | [] => []
  | (gap, a) :: rest => List.replicate gap {} ++ answerEdge a :: answerEdges rest

end Sys2Proof.Machine
end

