-- ==== Sys2Proof/Certificates/Slice0/Obligations.lean ====
section
/-! DEFINITION. The statements for the provers. Each docstring names the rule of spec/ it formalises. -/

open Sys2Proof Sys2Proof.Machine

/-! ## Encoding -/

/-- R91 (spec/30_encoding.md). -/
def Obligations.DecoderGivesTheFourCommands : Prop :=
  decode 0#2 = .read ∧ decode 1#2 = .advance ∧ decode 2#2 = .reset ∧ decode 3#2 = .construct ∧
  ∀ op : BitVec 2, op = 0#2 ∨ op = 1#2 ∨ op = 2#2 ∨ op = 3#2

/-- The words of spec/opcode_table.json (R81), and that no other word is a command. The second half rests on the byte
layout, the model's choice (log 13). -/
def Obligations.TableWordsDecode : Prop :=
  decodeTableWord 8 0 = some .read ∧ decodeTableWord 8 1 = some .advance ∧
  decodeTableWord 8 2 = some .reset ∧ decodeTableWord 8 3 = some .construct ∧
  ∀ nbits w : Nat, 4 ≤ w → decodeTableWord nbits w = none

/-- Decode and encode agree, both ways, for whole programs: bytes decode to a program exactly where they are its
encoding, and the `cmd_op` values of R92 decode command by command (R81, R91, R92). The byte layout is the model's
choice (log 13). -/
def Obligations.ProgramDecodeEncodeAgree : Prop :=
  (∀ (bs : List (BitVec 8)) (p : List Instr), decodeProgramBytes bs = .ok p ↔ encodeProgramBytes p = bs) ∧
  (∀ p : List Instr, (encodeProgram p).map decode = p) ∧
  (∀ ops : List (BitVec 2), encodeProgram (ops.map decode) = ops)

/-- R92: a program written one mnemonic a line, with any comments, assembles to that program. How blanks
and the empty last line are read is the model's choice (log 15). -/
def Obligations.AssemblerReadsListings : Prop :=
  ∀ p : List (Instr × List Char), (∀ line ∈ p, '\n' ∉ line.2) → assemble (listing p) = .ok (p.map Prod.fst)

/-! ## Build parameters -/

/-- R8, R9: exactly the admitted parameters give a build, which has them; the canonical build has the canonical ones. -/
def Obligations.BuildAdmitsExactlyTheSpecRanges : Prop :=
  (∀ (k c : Nat) (l : Latency), (Build.ofParams k c l).isSome = true ↔ 1 ≤ k ∧ 1 ≤ c ∧ c ≤ 2 ^ 32 - 1) ∧
  (∀ (k c : Nat) (l : Latency) (b : Build), Build.ofParams k c l = some b →
    b.log2Cycle = k ∧ b.cycle = 2 ^ k ∧ b.cMax.toNat = c ∧ b.latency = l) ∧
  Config.canonical.cycle = 4096 ∧ Config.canonical.cMax.toNat = 809430660

/-- R44: nothing the engine does changes a build parameter. That they stand in the state is the model's choice (log 1). -/
def Obligations.BuildNeverChanges : Prop :=
  (∀ s t : State, step s = .next t → t.build = s.build) ∧
  (∀ (i : Instr) (s t : State), exec i s = .next t → t.build = s.build)

/-! ## READ -/

/-- R131: READ completes in every state, with `ring[cursor]` where `SEEDED = 1` and `NOT_SEEDED` where not; nothing but
the response and `BUSY` changes, and a second READ answers the same. -/
def Obligations.ReadCompletes : Prop :=
  (∀ s : State, s.seeded = true →
    exec .read s = .next { s with
      busy := true
      progress := .done
      rspStatus := .ok
      rspData := s.storage.ring[s.storage.cursor.toNat]'s.storage.cursor.isLt
      wait := s.build.latency.read }) ∧
  (∀ s : State, s.seeded = false →
    exec .read s = .next { s with
      busy := true
      progress := .done
      rspStatus := .notSeeded
      rspData := 0#32
      wait := s.build.latency.read }) ∧
  (∀ s t u : State, exec .read s = .next t → exec .read t.takeResponse = .next u →
    u.rspStatus = t.rspStatus ∧ u.rspData = t.rspData ∧ u.engineState = s.engineState)

/-- R132: what a READ returns right after a successful CONSTRUCT or RESET, and right after an ADVANCE; the ADVANCE itself
returns no data. -/
def Obligations.ReadReturnsTheNewestWord : Prop :=
  (∀ (i : Instr) (s t u : State) (r : Response), i = .construct ∨ i = .reset →
    transact i s = some (⟨.ok, 0#32⟩, t) → transact .read t = some (r, u) →
    r.status = .ok ∧ some r.data = t.engineState.ring[s.cycle - 1]? ∧
    (∀ (pre : List Answer) (v : Word) (post : List Answer), i = .construct → s.entropy = pre ++ .word v :: post →
      t.entropy = post → r.data = v)) ∧
  (∀ s : State, s.seeded = true → ∃ t u : State,
    transact .advance s = some (⟨.ok, 0#32⟩, t) ∧
    transact .read t = some (⟨.ok, 0xFFFFFFFE#32 -
      (mwcStep (s.storage.readRing (s.storage.cursor + 1#_)) s.storage.carry).1⟩, u))

/-! ## ADVANCE -/

/-- R141, with the arithmetic of R143 to R145 on naturals: ADVANCE completes in every state. -/
def Obligations.AdvanceCompletes : Prop :=
  (∀ s : State, s.seeded = true →
    let cursor' : Fin (2 ^ s.build.log2Cycle) :=
      ⟨(s.storage.cursor.toNat + 1) % 2 ^ s.build.log2Cycle, Nat.mod_lt _ (Nat.two_pow_pos _)⟩
    let q : Nat := (s.storage.ring[cursor'.val]'cursor'.isLt).toNat
    let t : Nat := 18782 * q + s.storage.carry.toNat
    let c : Nat := t / 2 ^ 32
    let x : Nat := (t % 2 ^ 32 + c) % 2 ^ 32
    let x' : Nat := if x < c then x + 1 else x
    let c' : Nat := if x < c then c + 1 else c
    exec .advance s = .next { s with
      storage := { s.storage with
        ring := s.storage.ring.set cursor'.val (BitVec.ofNat 32 ((0xFFFFFFFE + 2 ^ 32 - x') % 2 ^ 32)) cursor'.isLt
        carry := BitVec.ofNat 32 c'
        cursor := BitVec.ofNat s.build.log2Cycle cursor'.val }
      busy := true
      progress := .done
      rspStatus := .ok
      rspData := 0#32
      wait := s.build.latency.advance }) ∧
  (∀ s : State, s.seeded = false →
    exec .advance s = .next { s with
      busy := true
      progress := .done
      rspStatus := .notSeeded
      rspData := 0#32
      wait := s.build.latency.advance })

/-- R147, its five items, for every 32-bit `q` and carry, and item 5 of the carry register after an ADVANCE. -/
def Obligations.MultiplyCarryBounds : Prop :=
  (∀ q c : Word,
    mwcProduct q c ≤ 18783 * 2 ^ 32 - 18783 ∧ 18783 * 2 ^ 32 - 18783 < 2 ^ 47 ∧
    (hi32 (mwcProduct q c)).toNat = mwcProduct q c / 2 ^ 32 ∧
    (hi32 (mwcProduct q c)).toNat ≤ 18782 ∧
    ((hi32 (mwcProduct q c)).toNat = 18782 →
      mwcWraps (mwcProduct q c) = false ∧ (lo32 (mwcProduct q c)).toNat ≤ 2 ^ 32 - 18783) ∧
    (mwcWraps (mwcProduct q c) = true →
      (hi32 (mwcProduct q c)).toNat ≤ 18781 ∧
      (mwcSum (mwcProduct q c)).toNat < (hi32 (mwcProduct q c)).toNat ∧
      (mwcStep q c).1.toNat = (mwcSum (mwcProduct q c)).toNat + 1 ∧ (mwcStep q c).1.toNat ≤ 18781) ∧
    (mwcStep q c).2.toNat ≤ 18782) ∧
  (∀ s t : State, s.seeded = true → exec .advance s = .next t →
    t.storage.carry.toNat ≤ 18782 ∧ ∀ i, 15 ≤ i → t.storage.carry.getLsbD i = false)

/-- R148: the exact decomposition of `t`, of the state an ADVANCE leaves and of the datapath. -/
def Obligations.AdvanceDecomposesExactly : Prop :=
  (∀ s : State, s.seeded = true → ∃ t : State, exec .advance s = .next t ∧
    18782 * (s.storage.readRing (s.storage.cursor + 1#_)).toNat + s.storage.carry.toNat =
      t.storage.carry.toNat * (2 ^ 32 - 1) +
        (0xFFFFFFFE#32 - t.storage.ring[t.storage.cursor.toNat]'t.storage.cursor.isLt).toNat) ∧
  (∀ q c : Word,
    mwcProduct q c = (mwcStep q c).2.toNat * (2 ^ 32 - 1) + (mwcStep q c).1.toNat ∧
    (mwcStep q c).1.toNat ≤ 2 ^ 32 - 1 ∧
    (mwcStep q c).1.toNat % 0xFFFFFFFF = mwcProduct q c % 0xFFFFFFFF) ∧
  (mwcStep 0#32 0xFFFFFFFF#32).1 = 0xFFFFFFFF#32

/-- R144's equivalence: the test `x < c` holds exactly where the 32-bit addition wrapped. -/
def Obligations.CorrectionExactlyOnWrap : Prop :=
  ∀ q c : Word, mwcWraps (mwcProduct q c) = true ↔
    2 ^ 32 ≤ (lo32 (mwcProduct q c)).toNat + (hi32 (mwcProduct q c)).toNat

/-- R142 over many commands: after `n` ADVANCE commands the cursor has moved by `n` modulo CYCLE (R45, R115 item 3). -/
def Obligations.AdvancesMoveTheCursor : Prop :=
  ∀ (n : Nat) (s : State), s.seeded = true → ∃ (rs : List Response) (t : State),
    transactAll (List.replicate n .advance) s = some (rs, t) ∧ rs = List.replicate n ⟨.ok, 0#32⟩ ∧
    t.engineState.cursor = (s.engineState.cursor + n) % s.cycle ∧ t.seeded = true

/-- R149: from a seeded state with `cursor = CYCLE - 1` (every state right after a successful CONSTRUCT or RESET is one,
R105, R111), the words form one sequence `y` with its carries `c`: the first CYCLE are the ring, each next one is computed
from the word CYCLE before it, the first READ returns `y (CYCLE - 1)`, and the `(n+1)`-th ADVANCE writes `y (n + CYCLE)` at
index `n mod CYCLE`, which the READ after it returns. -/
def Obligations.OutputIsLagRecurrence : Prop :=
  ∀ s : State, s.seeded = true → s.storage.cursor = lastIndex s.build.log2Cycle →
    ∃ y c : Nat → Word,
      (∀ j, j < s.cycle → s.engineState.ring[j]? = some (y j)) ∧
      c 0 = s.storage.carry ∧
      (∀ n, c (n + 1) = (mwcStep (y n) (c n)).2) ∧
      (∀ n, y (n + s.cycle) = 0xFFFFFFFE#32 - (mwcStep (y n) (c n)).1) ∧
      (∃ t : State, transact .read s = some (⟨.ok, y (s.cycle - 1)⟩, t)) ∧
      ∀ n, ∃ (rs : List Response) (t u : State),
        transactAll (List.replicate (n + 1) .advance) s = some (rs, t) ∧
        t.storage.carry = c (n + 1) ∧ t.engineState.cursor = n % s.cycle ∧
        t.engineState.ring[n % s.cycle]? = some (y (n + s.cycle)) ∧
        transact .read t = some (⟨.ok, y (n + s.cycle)⟩, u)

/-! ## RESET -/

/-- R111: RESET completes in every state; a second RESET leaves the same state. -/
def Obligations.ResetCompletes : Prop :=
  (∀ s : State, s.seeded = true →
    exec .reset s = .next { s with
      storage := { s.storage with
        ring := s.storage.initialRing
        carry := s.storage.initialCarry
        cursor := BitVec.ofNat s.build.log2Cycle (s.cycle - 1) }
      busy := true
      progress := .done
      rspStatus := .ok
      rspData := 0#32
      wait := s.build.latency.reset }) ∧
  (∀ s : State, s.seeded = false →
    exec .reset s = .next { s with
      busy := true
      progress := .done
      rspStatus := .notSeeded
      rspData := 0#32
      wait := s.build.latency.reset }) ∧
  (∀ s t u : State, exec .reset s = .next t → exec .reset t.takeResponse = .next u → u = t)

/-- R114: after a successful CONSTRUCT and any READ, ADVANCE and RESET commands, RESET gives back the whole state right
after the CONSTRUCT, and the next READ its word. -/
def Obligations.ResetReturnsToConstruction : Prop :=
  ∀ (s s0 s1 : State) (cmds : List Instr) (rs : List Response),
    transact .construct s = some (⟨.ok, 0#32⟩, s0) → .construct ∉ cmds → transactAll cmds s0 = some (rs, s1) →
    ∃ s2 s3 s4 : State, ∃ w : Word,
      transact .reset s1 = some (⟨.ok, 0#32⟩, s2) ∧ s2.engineState = s0.engineState ∧
      transact .read s0 = some (⟨.ok, w⟩, s3) ∧ transact .read s2 = some (⟨.ok, w⟩, s4)

/-- R37: no command other than CONSTRUCT writes the snapshot, and no edge does unless it is a power-on reset, accepts a
CONSTRUCT or belongs to one in progress. -/
def Obligations.SnapshotChangesOnlyInConstruct : Prop :=
  (∀ (i : Instr) (s t : State), i ≠ .construct → exec i s = .next t →
    t.engineState.initialRing = s.engineState.initialRing ∧ t.storage.initialCarry = s.storage.initialCarry) ∧
  (∀ s t : State, step s = .next t → s.pins.rstN = true →
    ¬ (s.busy = false ∧ s.pins.cmdValid = true ∧ s.pins.cmdOp = 0b11#2) →
    ¬ (s.busy = true ∧ s.progress ≠ .done) →
    t.engineState.initialRing = s.engineState.initialRing ∧ t.storage.initialCarry = s.storage.initialCarry)

/-! ## CONSTRUCT -/

/-- R103, R104, R105: with any rejected candidates, one candidate below `C_MAX` and CYCLE words at hand, CONSTRUCT
completes with them and takes no answer more; what it does not write is unchanged. -/
def Obligations.ConstructCompletes : Prop :=
  ∀ (s : State) (rejected : List Word) (v : Word) (words : List Word) (rest : List Answer),
    (∀ r ∈ rejected, s.build.cMax.toNat ≤ r.toNat) → v.toNat < s.build.cMax.toNat → words.length = s.cycle →
    s.entropy = rejected.map .word ++ .word v :: (words.map .word ++ rest) →
    ∃ t : State, exec .construct s = .next t ∧
      t.engineState =
        { log2Cycle := s.build.log2Cycle
          cMax := s.build.cMax
          ring := words
          initialRing := words
          carry := v
          initialCarry := v
          cursor := s.cycle - 1
          seeded := true
          fatal := false } ∧
      t.build = s.build ∧ t.busy = true ∧ t.progress = .done ∧ t.rspStatus = .ok ∧ t.rspData = 0#32 ∧
      t.wait = s.build.latency.construct ∧ t.freeCount = s.freeCount ∧ t.entropy = rest ∧ t.inputs = s.inputs

/-- R106, R172: a failed answer in either phase ends CONSTRUCT there. `rejected` are candidates turned down; `drawn` is empty in the
carry phase, and otherwise the accepted candidate and the ring words before the failure. -/
def Obligations.ConstructFailsAtTheFailedDraw : Prop :=
  ∀ (s : State) (rejected drawn : List Word) (rest : List Answer),
    (∀ r ∈ rejected, s.build.cMax.toNat ≤ r.toNat) → (∀ v ∈ drawn.head?, v.toNat < s.build.cMax.toNat) →
    drawn.length ≤ s.cycle →
    s.entropy = rejected.map .word ++ (drawn.map .word ++ .fail :: rest) →
    ∃ t : State, exec .construct s = .next t ∧
      t.seeded = false ∧ t.fatal = true ∧ t.busy = true ∧ t.progress = .done ∧
      t.rspStatus = .entropyFail ∧ t.rspData = 0#32 ∧ t.wait = s.build.latency.construct ∧
      t.build = s.build ∧ t.entropy = rest ∧ t.inputs = s.inputs

/-- R209, R174: with too few answers, CONSTRUCT stays in progress: `BUSY`, no response, no fault, `SEEDED = 0`; edges at
which the source answers nothing leave it so. That the wait is a state is log 8; `FATAL`
keeps its value by R16. -/
def Obligations.ConstructWaitsForTheSource : Prop :=
  ∀ (s : State) (rejected drawn : List Word),
    (∀ r ∈ rejected, s.build.cMax.toNat ≤ r.toNat) → (∀ v ∈ drawn.head?, v.toNat < s.build.cMax.toNat) →
    drawn.length ≤ s.cycle → s.entropy = rejected.map .word ++ drawn.map .word →
    ∃ t : State, exec .construct s = .next t ∧
      t.busy = true ∧ t.progress ≠ .done ∧ t.seeded = false ∧ t.fatal = s.fatal ∧ t.build = s.build ∧
      t.entropy = [] ∧ t.inputs = s.inputs ∧ t.freeCount = s.freeCount ∧
      ∀ (n : Nat) (ps : List Pins), ps.length = n → (∀ p ∈ ps, p.rstN = true ∧ p.entValid = false) →
        ∃ u : State, runEdges n { t with inputs := ps } = .next u ∧ u = { t with inputs := [] } ∧
          u.outputs true = ⟨false, none, true, BitVec.ofBool s.fatal ++ 0b01#2⟩

/-- R107: how many answers a finished CONSTRUCT has consumed, and which. -/
def Obligations.ConstructConsumesExactly : Prop :=
  ∀ s t : State, exec .construct s = .next t → t.progress = .done →
    (t.rspStatus = .ok ∧ ∃ (k : Nat) (used : List Word), 1 ≤ k ∧ used.length = s.cycle + k ∧
      s.entropy = used.map .word ++ t.entropy ∧
      (∀ r ∈ used.take (k - 1), s.build.cMax.toNat ≤ r.toNat) ∧
      ∃ v ∈ used[k - 1]?, v.toNat < s.build.cMax.toNat ∧ t.storage.carry = v) ∨
    (t.rspStatus = .entropyFail ∧ ∃ used : List Word, s.entropy = used.map .word ++ .fail :: t.entropy)

/-- R101: nothing of the previous state survives a successful CONSTRUCT: two engines of one build, given the same answers,
end equal, whatever they held. -/
def Obligations.ConstructForgetsThePast : Prop :=
  ∀ s t u v : State, s.build = t.build → s.entropy = t.entropy → exec .construct s = .next u →
    exec .construct t = .next v → u.progress = .done → u.rspStatus = .ok →
    v.progress = .done ∧ v.rspStatus = .ok ∧ u.engineState = v.engineState ∧ u.entropy = v.entropy

/-- R103 at the entropy handshake (R88): a candidate is kept exactly where it is below `C_MAX`. The architectural record is
unchanged either way, because the carries are written when the command completes (R16). The register that holds the kept
candidate meanwhile is the model's choice (DESIGN CHOICE, log 18). -/
def Obligations.CarryCandidateAtTheHandshake : Prop :=
  ∀ (s : State) (p : Pins) (rest : List Pins), s.inputs = p :: rest → p.rstN = true → s.busy = true →
    s.progress = .drawCarry → p.entValid = true → p.entErr = false →
    ∃ t : State, step s = .next t ∧ t.inputs = rest ∧ t.busy = true ∧ t.engineState = s.engineState ∧
      if p.entData.toNat < s.build.cMax.toNat then t.progress = .fillRing ∧ t.storage.heldCarry = p.entData
      else t.progress = .drawCarry ∧ t.storage.heldCarry = s.storage.heldCarry

/-- R16: the writes of a CONSTRUCT to `carry`, `initial_carry`, `cursor` and `FATAL` take effect together when it completes.
A command still in progress has written none of them; at the handshake of the last ring word all are written (R103, R104,
R105), and of the rings that word only. That the carries come from the register `heldCarry` is the model's choice (log 18). -/
def Obligations.ConstructWritesTakeEffectAtItsEnd : Prop :=
  (∀ s t : State, exec .construct s = .next t → t.progress ≠ .done →
    t.storage.carry = s.storage.carry ∧ t.storage.initialCarry = s.storage.initialCarry ∧
    t.engineState.cursor = s.engineState.cursor ∧ t.fatal = s.fatal) ∧
  (∀ s t : State, step s = .next t → s.pins.rstN = true → t.progress ≠ .done →
    t.storage.carry = s.storage.carry ∧ t.storage.initialCarry = s.storage.initialCarry ∧
    t.engineState.cursor = s.engineState.cursor ∧ t.fatal = s.fatal) ∧
  (∀ s : State, s.pins.rstN = true → s.busy = true → s.progress = .fillRing →
    s.storage.fillIndex = lastIndex s.build.log2Cycle → s.pins.entValid = true → s.pins.entErr = false →
    ∃ t : State, step s = .next t ∧ t.progress = .done ∧ t.rspStatus = .ok ∧ t.rspData = 0#32 ∧
      t.engineState =
        { log2Cycle := s.build.log2Cycle
          cMax := s.build.cMax
          ring := s.engineState.ring.set (s.cycle - 1) s.pins.entData
          initialRing := s.engineState.initialRing.set (s.cycle - 1) s.pins.entData
          carry := s.storage.heldCarry
          initialCarry := s.storage.heldCarry
          cursor := s.cycle - 1
          seeded := true
          fatal := false })

/-- R18, R88, R84: CONSTRUCT on the signals, each answer taken at its own handshake with any pauses between, ends in the
very state of the atomic command given all the answers at once, where the command needs every one of them. The atomic
command on answers at hand is the model's choice (log 6). -/
def Obligations.HandshakesRefineAtomicConstruct : Prop :=
  ∀ (s t : State) (gs : List (Nat × Answer)) (rest : List Pins),
    s.busy = false → s.entropy = [] →
    s.inputs = commandEdge 0b11#2 :: (answerEdges gs ++ rest) →
    exec .construct { s with entropy := gs.map Prod.snd } = .next t →
    (∀ pre last, gs = pre ++ [last] → ∀ u,
      exec .construct { s with entropy := pre.map Prod.snd } = .next u → u.progress ≠ .done) →
    runEdges (1 + (answerEdges gs).length) s = .next { t with inputs := rest }

/-! ## Errors and status bits -/

/-- R171: READ, ADVANCE and RESET with `SEEDED = 0` change nothing and answer `NOT_SEEDED` with data 0; CONSTRUCT never
answers it. -/
def Obligations.UnseededCommandsAnswerNotSeeded : Prop :=
  (∀ (i : Instr) (s : State), i ≠ .construct → s.seeded = false →
    exec i s = .next { s with
      busy := true
      progress := .done
      rspStatus := .notSeeded
      rspData := 0#32
      wait := latencyOf s.build i }) ∧
  (∀ s t : State, exec .construct s = .next t → t.progress = .done → t.rspStatus ≠ .notSeeded)

/-- R173: after an `ENTROPY_FAIL`, READ, ADVANCE and RESET answer `NOT_SEEDED` for as long as the host sends only these,
and a CONSTRUCT that succeeds clears `FATAL`. -/
def Obligations.OnlyConstructRecovers : Prop :=
  ∀ (s s0 : State), transact .construct s = some (⟨.entropyFail, 0#32⟩, s0) →
    (∀ cmds : List Instr, .construct ∉ cmds → ∃ s1 : State,
      transactAll cmds s0 = some (List.replicate cmds.length ⟨.notSeeded, 0#32⟩, s1) ∧
      s1.engineState = s0.engineState ∧ s1.fatal = true) ∧
    (∀ s1 : State, transact .construct s0 = some (⟨.ok, 0#32⟩, s1) → s1.fatal = false ∧ s1.seeded = true)

/-- R40: the edges that change `SEEDED`. That a CONSTRUCT may end at its acceptance edge, on answers at hand, is the model's
choice (log 6). -/
def Obligations.SeededChangesOnlyByConstruct : Prop :=
  ∀ s t : State, s.Inv → step s = .next t →
    (s.seeded = false → t.seeded = true →
      s.pins.rstN = true ∧ t.busy = true ∧ t.progress = .done ∧ t.rspStatus = .ok ∧ t.fatal = false ∧
      t.engineState.cursor = t.cycle - 1 ∧ t.storage.ring = t.storage.initialRing ∧
      ((s.busy = false ∧ s.pins.cmdValid = true ∧ s.pins.cmdOp = 0b11#2) ∨
        (s.busy = true ∧ s.progress = .fillRing ∧ s.pins.entValid = true ∧ s.pins.entErr = false))) ∧
    (s.seeded = true → t.seeded = false →
      s.pins.rstN = false ∨ (s.busy = false ∧ s.pins.cmdValid = true ∧ s.pins.cmdOp = 0b11#2))

/-- R41: `FATAL` is set only with an `ENTROPY_FAIL` response and cleared only by a successful CONSTRUCT or power-on
reset. -/
def Obligations.FatalChangesOnlyByConstructOrPowerOn : Prop :=
  ∀ s t : State, step s = .next t →
    (s.fatal = false → t.fatal = true →
      t.rspStatus = .entropyFail ∧ t.rspData = 0#32 ∧ t.busy = true ∧ t.progress = .done ∧ t.seeded = false) ∧
    (s.fatal = true → t.fatal = false →
      s.pins.rstN = false ∨ (t.seeded = true ∧ t.rspStatus = .ok ∧ t.busy = true ∧ t.progress = .done))

/-- R42 with R200: `BUSY` after an edge. -/
def Obligations.BusyFromAcceptanceToResponse : Prop :=
  ∀ s t : State, step s = .next t →
    (t.busy = true ↔ s.pins.rstN = true ∧
      ((s.busy = false ∧ s.pins.cmdValid = true) ∨
        (s.busy = true ∧ ¬ (s.rspValid true = true ∧ s.pins.rspReady = true)))) ∧
    (∀ rstN : Bool, s.cmdReady rstN = (rstN && !s.busy))

/-- R86: the data of a response is 0 unless a READ completed. -/
def Obligations.OnlyReadReturnsData : Prop :=
  ∀ (i : Instr) (s t : State), exec i s = .next t → t.progress = .done → (i ≠ .read ∨ t.rspStatus ≠ .ok) →
    t.rspData = 0#32

/-- R43: the bits of `status`; R64: what it shows while a CONSTRUCT draws. -/
def Obligations.StatusBits : Prop :=
  (∀ s : State, s.status.getLsbD 0 = s.busy ∧ s.status.getLsbD 1 = s.seeded ∧ s.status.getLsbD 2 = s.fatal) ∧
  (∀ s : State, s.Inv → s.progress ≠ .done → s.status.getLsbD 0 = true ∧ s.status.getLsbD 1 = false)

/-- R38: after a CONSTRUCT or RESET that answers `OK`. -/
def Obligations.CarryBoundedAfterConstructOrReset : Prop :=
  ∀ (i : Instr) (s t : State), i = .construct ∨ i = .reset → s.Inv → exec i s = .next t → t.progress = .done →
    t.rspStatus = .ok → t.engineState.cursor = t.cycle - 1 ∧ t.storage.carry.toNat < t.build.cMax.toNat

/-! ## Channels and edges -/

/-- A step runs the decoded command: at an edge that accepts a command (R84), the step is `exec` of it, after the pin
sample is used up. -/
def Obligations.StepRunsTheAcceptedCommand : Prop :=
  ∀ (s : State) (p : Pins) (rest : List Pins), s.inputs = p :: rest → p.rstN = true → p.cmdValid = true →
    s.busy = false → step s = exec (decode p.cmdOp) { s with inputs := rest }

/-- The command of a table word, placed by `withFetchWord`, is what the very next step runs (log 12). -/
def Obligations.FetchWordIsRunNext : Prop :=
  ∀ (s : State) (nbits w : Nat) (i : Instr), decodeTableWord nbits w = some i →
    step (s.withFetchWord nbits w) = exec i { s with busy := false, progress := .done }

/-- R84: `cmd_valid` and `cmd_op` have no effect at an edge at which `rst_n = 0` or the engine is `BUSY`, and `cmd_op`
none where `cmd_valid = 0`. -/
def Obligations.CommandPinsOnlySampledAtAcceptance : Prop :=
  ∀ (s : State) (p q : Pins) (rest : List Pins),
    q = { p with cmdValid := q.cmdValid, cmdOp := q.cmdOp } →
    p.rstN = false ∨ s.busy = true ∨ (p.cmdValid = false ∧ q.cmdValid = false) →
    step { s with inputs := p :: rest } = step { s with inputs := q :: rest }

/-- R88, R70, R176 item 3: the entropy pins have no effect where `ent_ready = 0` or `ent_valid = 0`, and `ent_data` none
where `ent_err = 1`; `rsp_ready` has none where `rsp_valid = 0`. -/
def Obligations.AnswersOnlySeenWhenRequested : Prop :=
  (∀ (s : State) (p q : Pins) (rest : List Pins),
    q = { p with entValid := q.entValid, entData := q.entData, entErr := q.entErr } →
    s.entReady p.rstN = false ∨ (p.entValid = false ∧ q.entValid = false) ∨
      (p.entValid = q.entValid ∧ p.entErr = true ∧ q.entErr = true) →
    step { s with inputs := p :: rest } = step { s with inputs := q :: rest }) ∧
  (∀ (s : State) (p q : Pins) (rest : List Pins), q = { p with rspReady := q.rspReady } →
    s.rspValid p.rstN = false → step { s with inputs := p :: rest } = step { s with inputs := q :: rest })

/-- R86: a presented response stays as it is, and the whole state with it, until the edge that takes it, which changes
only `BUSY`. -/
def Obligations.ResponseHeldUntilTaken : Prop :=
  ∀ (s : State) (p : Pins) (rest : List Pins), s.inputs = p :: rest → p.rstN = true → s.rspValid true = true →
    (p.rspReady = false → step s = .next { s with inputs := rest } ∧
      ({ s with inputs := rest } : State).outputs true = s.outputs true) ∧
    (p.rspReady = true → step s = .next { s with inputs := rest, busy := false } ∧
      ({ s with inputs := rest, busy := false } : State).rspValid true = false)

/-- R211, R86: the response of READ, ADVANCE and RESET appears exactly when the command's latency has passed, whatever
the pins do meanwhile short of `rst_n`, and not before. One constant latency per command is the model's choice (log 2). -/
def Obligations.ResponseAppearsAfterLatency : Prop :=
  ∀ (i : Instr) (s : State) (ps rest : List Pins), i ≠ .construct → s.busy = false →
    s.inputs = commandEdge (encode i) :: (ps ++ rest) → (∀ p ∈ ps, p.rstN = true) →
    ps.length ≤ latencyOf s.build i →
    ∃ u : State, exec i s = .next u ∧
      runEdges (1 + ps.length) s = .next { u with inputs := rest, wait := latencyOf s.build i - ps.length } ∧
      ∀ t : State, runEdges (1 + ps.length) s = .next t →
        t.busy = true ∧
        (t.outputs true).rsp =
          if ps.length = latencyOf s.build i then some ⟨u.rspStatus, u.rspData⟩ else none

/-- R85, R88, R86, R200: which outputs can be high together, and all of them low while `rst_n = 0`. -/
def Obligations.ReadySignalsExclusive : Prop :=
  ∀ s : State,
    ((s.outputs true).cmdReady = true ↔ s.busy = false) ∧
    ((s.outputs true).cmdReady = true → (s.outputs true).rsp = none ∧ (s.outputs true).entReady = false) ∧
    ((s.outputs true).entReady = true → (s.outputs true).rsp = none) ∧
    (s.outputs false).cmdReady = false ∧ (s.outputs false).rsp = none ∧ (s.outputs false).entReady = false

/-- R200, R201, R176 item 1: an edge with `rst_n = 0`, from any state, a command in progress among them. -/
def Obligations.PowerOnOverridesEverything : Prop :=
  ∀ s : State, s.pins.rstN = false → ∃ t : State, step s = .next t ∧
    t.seeded = false ∧ t.fatal = false ∧ t.busy = false ∧ t.build = s.build ∧
    t.entropy = s.entropy ∧ t.inputs = s.inputs.tail ∧
    t.outputs true = ⟨true, none, false, 0b000#3⟩

/-- R180: with no command in progress and none accepted, the engine keeps its state. -/
def Obligations.IdleKeepsItsState : Prop :=
  ∀ s : State, s.busy = false → s.pins.rstN = true → s.pins.cmdValid = false →
    step s = .next { s with inputs := s.inputs.tail }

/-- R170, R90, R179: no step and no command ever stops. -/
def Obligations.NothingTraps : Prop :=
  (∀ s : State, ∃ t : State, step s = .next t) ∧ (∀ (i : Instr) (s : State), ∃ t : State, exec i s = .next t) ∧
  (∀ (n : Nat) (s : State), ∃ t : State, runEdges n s = .next t)

/-! ## Reset, invariants, what cannot be observed -/

/-- R48: the power-on state of every build meets the invariant, has its three status bits 0, and accepts a command. The
clauses of `State.Inv` on the hidden progress and the response registers rest on the model's reset values (log 9, log 10). -/
def Obligations.PowerOnMeetsInvariant : Prop :=
  (∀ (b : Build) (n : Nat) (es : List Answer) (ps : List Pins), (State.powerOn b n es ps).Inv ∧
    (State.powerOn b n es ps).seeded = false ∧ (State.powerOn b n es ps).fatal = false ∧
    (State.powerOn b n es ps).busy = false ∧ (State.powerOn b n es ps).build = b) ∧
  State.reset.Inv ∧ State.reset.build = Config.canonical ∧ (State.reset.outputs true).cmdReady = true

/-- R49 and what goes with it (`State.Inv`): every step keeps the invariant, from every state that meets it. Only its first
three clauses (R49, R38 and R39) and `drawing_unseeded` (R64) are of the spec's own terms. The others rest on the model's
choices: `idle_done` on the hidden progress (log 10), `drawing_waits` on the answers at hand (log 6), `filling_held` on the
register that holds the accepted candidate (log 18), `filling_ring` on the hidden fill index (log 10), `error_data_zero` on
the response registers holding a value with no response pending (log 9). -/
def Obligations.StepKeepsInvariant : Prop :=
  ∀ s t : State, s.Inv → step s = .next t → t.Inv

/-- R48, R172, D20 (spec/92_eei_decisions.md): unspecified storage cannot be observed. Two engines that differ only in
their storage while `SEEDED = 0` and no ring is being filled drive the same outputs for ever, whatever the host and the
source do. -/
def Obligations.UnspecifiedStorageNeverObserved : Prop :=
  ∀ (s : State) (st : Storage s.build.log2Cycle), s.seeded = false → s.progress ≠ .fillRing →
    ∀ n : Nat, ∃ t u : State, runEdges n s = .next t ∧ runEdges n { s with storage := st } = .next u ∧
      ∀ rstN : Bool, t.outputs rstN = u.outputs rstN
end

