-- ==== Sys2Proof/Laws/State.lean ====
section
/-! SUPPORT. What each shared update of the state does to each field: one lemma per field per update, true by `rfl`, so that no
later proof unfolds a record update. -/

namespace Sys2Proof.Machine

open Sys2Proof

/-! ### withStorage -/

@[simp] theorem State.withStorage_build (s : State) (st : Storage s.build.log2Cycle) :
    (s.withStorage st).build = s.build := rfl
@[simp] theorem State.withStorage_storage (s : State) (st : Storage s.build.log2Cycle) :
    (s.withStorage st).storage = st := rfl
@[simp] theorem State.withStorage_seeded (s : State) (st : Storage s.build.log2Cycle) :
    (s.withStorage st).seeded = s.seeded := rfl
@[simp] theorem State.withStorage_fatal (s : State) (st : Storage s.build.log2Cycle) :
    (s.withStorage st).fatal = s.fatal := rfl
@[simp] theorem State.withStorage_busy (s : State) (st : Storage s.build.log2Cycle) :
    (s.withStorage st).busy = s.busy := rfl
@[simp] theorem State.withStorage_progress (s : State) (st : Storage s.build.log2Cycle) :
    (s.withStorage st).progress = s.progress := rfl
@[simp] theorem State.withStorage_rspStatus (s : State) (st : Storage s.build.log2Cycle) :
    (s.withStorage st).rspStatus = s.rspStatus := rfl
@[simp] theorem State.withStorage_rspData (s : State) (st : Storage s.build.log2Cycle) :
    (s.withStorage st).rspData = s.rspData := rfl
@[simp] theorem State.withStorage_wait (s : State) (st : Storage s.build.log2Cycle) :
    (s.withStorage st).wait = s.wait := rfl
@[simp] theorem State.withStorage_freeCount (s : State) (st : Storage s.build.log2Cycle) :
    (s.withStorage st).freeCount = s.freeCount := rfl
@[simp] theorem State.withStorage_entropy (s : State) (st : Storage s.build.log2Cycle) :
    (s.withStorage st).entropy = s.entropy := rfl
@[simp] theorem State.withStorage_inputs (s : State) (st : Storage s.build.log2Cycle) :
    (s.withStorage st).inputs = s.inputs := rfl

/-! ### respond -/

@[simp] theorem State.respond_build (s : State) (r : RspStatus) (d : Word) (w : Nat) :
    (s.respond r d w).build = s.build := rfl
@[simp] theorem State.respond_storage (s : State) (r : RspStatus) (d : Word) (w : Nat) :
    (s.respond r d w).storage = s.storage := rfl
@[simp] theorem State.respond_seeded (s : State) (r : RspStatus) (d : Word) (w : Nat) :
    (s.respond r d w).seeded = s.seeded := rfl
@[simp] theorem State.respond_fatal (s : State) (r : RspStatus) (d : Word) (w : Nat) :
    (s.respond r d w).fatal = s.fatal := rfl
@[simp] theorem State.respond_busy (s : State) (r : RspStatus) (d : Word) (w : Nat) :
    (s.respond r d w).busy = true := rfl
@[simp] theorem State.respond_progress (s : State) (r : RspStatus) (d : Word) (w : Nat) :
    (s.respond r d w).progress = .done := rfl
@[simp] theorem State.respond_rspStatus (s : State) (r : RspStatus) (d : Word) (w : Nat) :
    (s.respond r d w).rspStatus = r := rfl
@[simp] theorem State.respond_rspData (s : State) (r : RspStatus) (d : Word) (w : Nat) :
    (s.respond r d w).rspData = d := rfl
@[simp] theorem State.respond_wait (s : State) (r : RspStatus) (d : Word) (w : Nat) :
    (s.respond r d w).wait = w := rfl
@[simp] theorem State.respond_freeCount (s : State) (r : RspStatus) (d : Word) (w : Nat) :
    (s.respond r d w).freeCount = s.freeCount := rfl
@[simp] theorem State.respond_entropy (s : State) (r : RspStatus) (d : Word) (w : Nat) :
    (s.respond r d w).entropy = s.entropy := rfl
@[simp] theorem State.respond_inputs (s : State) (r : RspStatus) (d : Word) (w : Nat) :
    (s.respond r d w).inputs = s.inputs := rfl

/-! ### raise_notSeeded -/

@[simp] theorem State.raise_notSeeded_build (s : State) (w : Nat) : (s.raise .notSeeded w).build = s.build := rfl
@[simp] theorem State.raise_notSeeded_storage (s : State) (w : Nat) :
    (s.raise .notSeeded w).storage = s.storage := rfl
@[simp] theorem State.raise_notSeeded_seeded (s : State) (w : Nat) : (s.raise .notSeeded w).seeded = s.seeded := rfl
@[simp] theorem State.raise_notSeeded_fatal (s : State) (w : Nat) : (s.raise .notSeeded w).fatal = s.fatal := rfl
@[simp] theorem State.raise_notSeeded_busy (s : State) (w : Nat) : (s.raise .notSeeded w).busy = true := rfl
@[simp] theorem State.raise_notSeeded_progress (s : State) (w : Nat) : (s.raise .notSeeded w).progress = .done := rfl
@[simp] theorem State.raise_notSeeded_rspStatus (s : State) (w : Nat) :
    (s.raise .notSeeded w).rspStatus = .notSeeded := rfl
@[simp] theorem State.raise_notSeeded_rspData (s : State) (w : Nat) : (s.raise .notSeeded w).rspData = 0#32 := rfl
@[simp] theorem State.raise_notSeeded_wait (s : State) (w : Nat) : (s.raise .notSeeded w).wait = w := rfl
@[simp] theorem State.raise_notSeeded_freeCount (s : State) (w : Nat) :
    (s.raise .notSeeded w).freeCount = s.freeCount := rfl
@[simp] theorem State.raise_notSeeded_entropy (s : State) (w : Nat) :
    (s.raise .notSeeded w).entropy = s.entropy := rfl
@[simp] theorem State.raise_notSeeded_inputs (s : State) (w : Nat) : (s.raise .notSeeded w).inputs = s.inputs := rfl

/-! ### raise_entropyFail -/

@[simp] theorem State.raise_entropyFail_build (s : State) (w : Nat) : (s.raise .entropyFail w).build = s.build := rfl
@[simp] theorem State.raise_entropyFail_storage (s : State) (w : Nat) :
    (s.raise .entropyFail w).storage = Storage.unspecified s.build.log2Cycle s.freeCount := rfl
@[simp] theorem State.raise_entropyFail_seeded (s : State) (w : Nat) : (s.raise .entropyFail w).seeded = false := rfl
@[simp] theorem State.raise_entropyFail_fatal (s : State) (w : Nat) : (s.raise .entropyFail w).fatal = true := rfl
@[simp] theorem State.raise_entropyFail_busy (s : State) (w : Nat) : (s.raise .entropyFail w).busy = true := rfl
@[simp] theorem State.raise_entropyFail_progress (s : State) (w : Nat) :
    (s.raise .entropyFail w).progress = .done := rfl
@[simp] theorem State.raise_entropyFail_rspStatus (s : State) (w : Nat) :
    (s.raise .entropyFail w).rspStatus = .entropyFail := rfl
@[simp] theorem State.raise_entropyFail_rspData (s : State) (w : Nat) : (s.raise .entropyFail w).rspData = 0#32 := rfl
@[simp] theorem State.raise_entropyFail_wait (s : State) (w : Nat) : (s.raise .entropyFail w).wait = w := rfl
@[simp] theorem State.raise_entropyFail_freeCount (s : State) (w : Nat) :
    (s.raise .entropyFail w).freeCount = s.freeCount + 1 := rfl
@[simp] theorem State.raise_entropyFail_entropy (s : State) (w : Nat) :
    (s.raise .entropyFail w).entropy = s.entropy := rfl
@[simp] theorem State.raise_entropyFail_inputs (s : State) (w : Nat) :
    (s.raise .entropyFail w).inputs = s.inputs := rfl

/-! ### takeResponse -/

@[simp] theorem State.takeResponse_build (s : State) : s.takeResponse.build = s.build := rfl
@[simp] theorem State.takeResponse_storage (s : State) : s.takeResponse.storage = s.storage := rfl
@[simp] theorem State.takeResponse_seeded (s : State) : s.takeResponse.seeded = s.seeded := rfl
@[simp] theorem State.takeResponse_fatal (s : State) : s.takeResponse.fatal = s.fatal := rfl
@[simp] theorem State.takeResponse_busy (s : State) : s.takeResponse.busy = false := rfl
@[simp] theorem State.takeResponse_progress (s : State) : s.takeResponse.progress = s.progress := rfl
@[simp] theorem State.takeResponse_rspStatus (s : State) : s.takeResponse.rspStatus = s.rspStatus := rfl
@[simp] theorem State.takeResponse_rspData (s : State) : s.takeResponse.rspData = s.rspData := rfl
@[simp] theorem State.takeResponse_wait (s : State) : s.takeResponse.wait = s.wait := rfl
@[simp] theorem State.takeResponse_freeCount (s : State) : s.takeResponse.freeCount = s.freeCount := rfl
@[simp] theorem State.takeResponse_entropy (s : State) : s.takeResponse.entropy = s.entropy := rfl
@[simp] theorem State.takeResponse_inputs (s : State) : s.takeResponse.inputs = s.inputs := rfl

/-! ### powerOnReset -/

@[simp] theorem State.powerOnReset_build (s : State) : s.powerOnReset.build = s.build := rfl
@[simp] theorem State.powerOnReset_storage (s : State) :
    s.powerOnReset.storage = Storage.unspecified s.build.log2Cycle s.freeCount := rfl
@[simp] theorem State.powerOnReset_seeded (s : State) : s.powerOnReset.seeded = false := rfl
@[simp] theorem State.powerOnReset_fatal (s : State) : s.powerOnReset.fatal = false := rfl
@[simp] theorem State.powerOnReset_busy (s : State) : s.powerOnReset.busy = false := rfl
@[simp] theorem State.powerOnReset_progress (s : State) : s.powerOnReset.progress = .done := rfl
@[simp] theorem State.powerOnReset_rspStatus (s : State) : s.powerOnReset.rspStatus = .ok := rfl
@[simp] theorem State.powerOnReset_rspData (s : State) : s.powerOnReset.rspData = 0#32 := rfl
@[simp] theorem State.powerOnReset_wait (s : State) : s.powerOnReset.wait = 0 := rfl
@[simp] theorem State.powerOnReset_freeCount (s : State) : s.powerOnReset.freeCount = s.freeCount + 1 := rfl
@[simp] theorem State.powerOnReset_entropy (s : State) : s.powerOnReset.entropy = s.entropy := rfl
@[simp] theorem State.powerOnReset_inputs (s : State) : s.powerOnReset.inputs = s.inputs := rfl

/-! ### nextEdge -/

@[simp] theorem State.nextEdge_build (s : State) : s.nextEdge.build = s.build := rfl
@[simp] theorem State.nextEdge_storage (s : State) : s.nextEdge.storage = s.storage := rfl
@[simp] theorem State.nextEdge_seeded (s : State) : s.nextEdge.seeded = s.seeded := rfl
@[simp] theorem State.nextEdge_fatal (s : State) : s.nextEdge.fatal = s.fatal := rfl
@[simp] theorem State.nextEdge_busy (s : State) : s.nextEdge.busy = s.busy := rfl
@[simp] theorem State.nextEdge_progress (s : State) : s.nextEdge.progress = s.progress := rfl
@[simp] theorem State.nextEdge_rspStatus (s : State) : s.nextEdge.rspStatus = s.rspStatus := rfl
@[simp] theorem State.nextEdge_rspData (s : State) : s.nextEdge.rspData = s.rspData := rfl
@[simp] theorem State.nextEdge_wait (s : State) : s.nextEdge.wait = s.wait := rfl
@[simp] theorem State.nextEdge_freeCount (s : State) : s.nextEdge.freeCount = s.freeCount := rfl
@[simp] theorem State.nextEdge_entropy (s : State) : s.nextEdge.entropy = s.entropy := rfl
@[simp] theorem State.nextEdge_inputs (s : State) : s.nextEdge.inputs = s.inputs.tail := rfl

/-! ### quietEdge -/

@[simp] theorem State.quietEdge_build (s : State) : s.quietEdge.build = s.build := rfl
@[simp] theorem State.quietEdge_storage (s : State) : s.quietEdge.storage = s.storage := rfl
@[simp] theorem State.quietEdge_seeded (s : State) : s.quietEdge.seeded = s.seeded := rfl
@[simp] theorem State.quietEdge_fatal (s : State) : s.quietEdge.fatal = s.fatal := rfl
@[simp] theorem State.quietEdge_busy (s : State) : s.quietEdge.busy = s.busy := rfl
@[simp] theorem State.quietEdge_progress (s : State) : s.quietEdge.progress = s.progress := rfl
@[simp] theorem State.quietEdge_rspStatus (s : State) : s.quietEdge.rspStatus = s.rspStatus := rfl
@[simp] theorem State.quietEdge_rspData (s : State) : s.quietEdge.rspData = s.rspData := rfl
@[simp] theorem State.quietEdge_freeCount (s : State) : s.quietEdge.freeCount = s.freeCount := rfl
@[simp] theorem State.quietEdge_entropy (s : State) : s.quietEdge.entropy = s.entropy := rfl
@[simp] theorem State.quietEdge_inputs (s : State) : s.quietEdge.inputs = s.inputs := rfl

/-! ### ready -/

@[simp] theorem State.ready_build (s : State) : s.ready.build = s.build := rfl
@[simp] theorem State.ready_storage (s : State) : s.ready.storage = s.storage := rfl
@[simp] theorem State.ready_seeded (s : State) : s.ready.seeded = s.seeded := rfl
@[simp] theorem State.ready_fatal (s : State) : s.ready.fatal = s.fatal := rfl
@[simp] theorem State.ready_busy (s : State) : s.ready.busy = false := rfl
@[simp] theorem State.ready_progress (s : State) : s.ready.progress = .done := rfl
@[simp] theorem State.ready_rspStatus (s : State) : s.ready.rspStatus = s.rspStatus := rfl
@[simp] theorem State.ready_rspData (s : State) : s.ready.rspData = s.rspData := rfl
@[simp] theorem State.ready_wait (s : State) : s.ready.wait = s.wait := rfl
@[simp] theorem State.ready_freeCount (s : State) : s.ready.freeCount = s.freeCount := rfl
@[simp] theorem State.ready_entropy (s : State) : s.ready.entropy = s.entropy := rfl
@[simp] theorem State.ready_inputs (s : State) : s.ready.inputs = s.inputs := rfl

/-! ### beginConstruct -/

@[simp] theorem State.beginConstruct_build (s : State) : s.beginConstruct.build = s.build := rfl
@[simp] theorem State.beginConstruct_storage (s : State) : s.beginConstruct.storage = s.storage := rfl
@[simp] theorem State.beginConstruct_seeded (s : State) : s.beginConstruct.seeded = false := rfl
@[simp] theorem State.beginConstruct_fatal (s : State) : s.beginConstruct.fatal = s.fatal := rfl
@[simp] theorem State.beginConstruct_busy (s : State) : s.beginConstruct.busy = true := rfl
@[simp] theorem State.beginConstruct_progress (s : State) : s.beginConstruct.progress = .drawCarry := rfl
@[simp] theorem State.beginConstruct_rspStatus (s : State) : s.beginConstruct.rspStatus = s.rspStatus := rfl
@[simp] theorem State.beginConstruct_rspData (s : State) : s.beginConstruct.rspData = s.rspData := rfl
@[simp] theorem State.beginConstruct_wait (s : State) : s.beginConstruct.wait = s.wait := rfl
@[simp] theorem State.beginConstruct_freeCount (s : State) : s.beginConstruct.freeCount = s.freeCount := rfl
@[simp] theorem State.beginConstruct_entropy (s : State) : s.beginConstruct.entropy = s.entropy := rfl
@[simp] theorem State.beginConstruct_inputs (s : State) : s.beginConstruct.inputs = s.inputs := rfl

/-! ### completeConstruct -/

@[simp] theorem State.completeConstruct_build (s : State) : s.completeConstruct.build = s.build := rfl
@[simp] theorem State.completeConstruct_storage (s : State) :
    s.completeConstruct.storage = s.storage.commitConstruct := rfl
@[simp] theorem State.completeConstruct_seeded (s : State) : s.completeConstruct.seeded = true := rfl
@[simp] theorem State.completeConstruct_fatal (s : State) : s.completeConstruct.fatal = false := rfl
@[simp] theorem State.completeConstruct_busy (s : State) : s.completeConstruct.busy = true := rfl
@[simp] theorem State.completeConstruct_progress (s : State) : s.completeConstruct.progress = .done := rfl
@[simp] theorem State.completeConstruct_rspStatus (s : State) : s.completeConstruct.rspStatus = .ok := rfl
@[simp] theorem State.completeConstruct_rspData (s : State) : s.completeConstruct.rspData = 0#32 := rfl
@[simp] theorem State.completeConstruct_wait (s : State) : s.completeConstruct.wait = s.build.latency.construct := rfl
@[simp] theorem State.completeConstruct_freeCount (s : State) : s.completeConstruct.freeCount = s.freeCount := rfl
@[simp] theorem State.completeConstruct_entropy (s : State) : s.completeConstruct.entropy = s.entropy := rfl
@[simp] theorem State.completeConstruct_inputs (s : State) : s.completeConstruct.inputs = s.inputs := rfl

/-! ### withFetchWord -/

@[simp] theorem State.withFetchWord_build (s : State) (n w : Nat) : (s.withFetchWord n w).build = s.build := rfl
@[simp] theorem State.withFetchWord_storage (s : State) (n w : Nat) : (s.withFetchWord n w).storage = s.storage := rfl
@[simp] theorem State.withFetchWord_seeded (s : State) (n w : Nat) : (s.withFetchWord n w).seeded = s.seeded := rfl
@[simp] theorem State.withFetchWord_fatal (s : State) (n w : Nat) : (s.withFetchWord n w).fatal = s.fatal := rfl
@[simp] theorem State.withFetchWord_busy (s : State) (n w : Nat) : (s.withFetchWord n w).busy = false := rfl
@[simp] theorem State.withFetchWord_progress (s : State) (n w : Nat) : (s.withFetchWord n w).progress = .done := rfl
@[simp] theorem State.withFetchWord_rspStatus (s : State) (n w : Nat) :
    (s.withFetchWord n w).rspStatus = s.rspStatus := rfl
@[simp] theorem State.withFetchWord_rspData (s : State) (n w : Nat) : (s.withFetchWord n w).rspData = s.rspData := rfl
@[simp] theorem State.withFetchWord_wait (s : State) (n w : Nat) : (s.withFetchWord n w).wait = s.wait := rfl
@[simp] theorem State.withFetchWord_freeCount (s : State) (n w : Nat) :
    (s.withFetchWord n w).freeCount = s.freeCount := rfl
@[simp] theorem State.withFetchWord_entropy (s : State) (n w : Nat) : (s.withFetchWord n w).entropy = s.entropy := rfl
@[simp] theorem State.withFetchWord_inputs (s : State) (n w : Nat) :
    (s.withFetchWord n w).inputs = commandPins n w :: s.inputs := rfl

end Sys2Proof.Machine
end

