-- ==== Sys2Proof/Laws/Ops.lean ====
section
/-! SUPPORT. One specification lemma per shared operation: ring access, the check on `SEEDED`, one consumed answer, the
draws of `CONSTRUCT`, an edge. -/

namespace Sys2Proof.Machine

open Sys2Proof

/-! ### Ring access -/

@[simp] theorem Storage.readRing_writeRing_same {k : Nat} (st : Storage k) (i : BitVec k) (v : Word) :
    (st.writeRing i v).readRing i = v := by
  simp [Storage.readRing, Storage.writeRing]

theorem Storage.readRing_writeRing_other {k : Nat} (st : Storage k) {i j : BitVec k} (v : Word) (h : j ≠ i) :
    (st.writeRing i v).readRing j = st.readRing j := by
  have hn : ¬ i.toNat = j.toNat := fun e => h (BitVec.eq_of_toNat_eq e.symm)
  simp [Storage.readRing, Storage.writeRing, hn]

@[simp] theorem Storage.writeRing_initialRing {k : Nat} (st : Storage k) (i : BitVec k) (v : Word) :
    (st.writeRing i v).initialRing = st.initialRing := rfl

@[simp] theorem Storage.writeRing_initialCarry {k : Nat} (st : Storage k) (i : BitVec k) (v : Word) :
    (st.writeRing i v).initialCarry = st.initialCarry := rfl

@[simp] theorem Storage.fill_carry {k : Nat} (st : Storage k) (v : Word) : (st.fill v).carry = st.carry := rfl

@[simp] theorem Storage.fill_initialCarry {k : Nat} (st : Storage k) (v : Word) :
    (st.fill v).initialCarry = st.initialCarry := rfl

@[simp] theorem Storage.fill_cursor {k : Nat} (st : Storage k) (v : Word) : (st.fill v).cursor = st.cursor := rfl

@[simp] theorem Storage.fill_fillIndex {k : Nat} (st : Storage k) (v : Word) :
    (st.fill v).fillIndex = st.fillIndex + 1#k := rfl

@[simp] theorem Storage.fill_heldCarry {k : Nat} (st : Storage k) (v : Word) : (st.fill v).heldCarry = st.heldCarry := rfl

@[simp] theorem Storage.holdCarry_ring {k : Nat} (st : Storage k) (v : Word) : (st.holdCarry v).ring = st.ring := rfl

@[simp] theorem Storage.holdCarry_initialRing {k : Nat} (st : Storage k) (v : Word) :
    (st.holdCarry v).initialRing = st.initialRing := rfl

@[simp] theorem Storage.holdCarry_carry {k : Nat} (st : Storage k) (v : Word) : (st.holdCarry v).carry = st.carry := rfl

@[simp] theorem Storage.holdCarry_initialCarry {k : Nat} (st : Storage k) (v : Word) :
    (st.holdCarry v).initialCarry = st.initialCarry := rfl

@[simp] theorem Storage.holdCarry_cursor {k : Nat} (st : Storage k) (v : Word) :
    (st.holdCarry v).cursor = st.cursor := rfl

@[simp] theorem Storage.holdCarry_fillIndex {k : Nat} (st : Storage k) (v : Word) :
    (st.holdCarry v).fillIndex = 0#k := rfl

@[simp] theorem Storage.holdCarry_heldCarry {k : Nat} (st : Storage k) (v : Word) : (st.holdCarry v).heldCarry = v := rfl

@[simp] theorem Storage.commitConstruct_ring {k : Nat} (st : Storage k) : st.commitConstruct.ring = st.ring := rfl

@[simp] theorem Storage.commitConstruct_initialRing {k : Nat} (st : Storage k) :
    st.commitConstruct.initialRing = st.initialRing := rfl

@[simp] theorem Storage.commitConstruct_carry {k : Nat} (st : Storage k) :
    st.commitConstruct.carry = st.heldCarry := rfl

@[simp] theorem Storage.commitConstruct_initialCarry {k : Nat} (st : Storage k) :
    st.commitConstruct.initialCarry = st.heldCarry := rfl

@[simp] theorem Storage.commitConstruct_cursor {k : Nat} (st : Storage k) :
    st.commitConstruct.cursor = lastIndex k := rfl

theorem lastIndex_toNat (k : Nat) : (lastIndex k).toNat = 2 ^ k - 1 := by
  simp [lastIndex]

/-- The index after one that is not the last does not wrap (R142, R62). -/
theorem succ_toNat_of_ne_last {k : Nat} {i : BitVec k} (h : i ≠ lastIndex k) : (i + 1#k).toNat = i.toNat + 1 := by
  have hne : i.toNat ≠ 2 ^ k - 1 := fun e =>
    h (BitVec.eq_of_toNat_eq (by rw [e, lastIndex_toNat]))
  have hlt := i.isLt
  have : i.toNat + 1 < 2 ^ k := by omega
  have h1 : 1 % 2 ^ k = 1 := Nat.mod_eq_of_lt (by omega)
  rw [BitVec.toNat_add, BitVec.toNat_ofNat, h1, Nat.mod_eq_of_lt this]

/-- The word an ADVANCE leaves at the new cursor (R132 item 2, R145). -/
theorem Storage.advance_current {k : Nat} (st : Storage k) :
    st.advance.readRing st.advance.cursor =
      Config.subtrahend - (mwcStep (st.readRing (st.cursor + 1#k)) st.carry).1 :=
  Storage.readRing_writeRing_same st _ _

@[simp] theorem Storage.advance_cursor {k : Nat} (st : Storage k) : st.advance.cursor = st.cursor + 1#k := rfl

@[simp] theorem Storage.advance_carry {k : Nat} (st : Storage k) :
    st.advance.carry = (mwcStep (st.readRing (st.cursor + 1#k)) st.carry).2 := rfl

@[simp] theorem Storage.advance_initialRing {k : Nat} (st : Storage k) : st.advance.initialRing = st.initialRing := rfl

@[simp] theorem Storage.advance_initialCarry {k : Nat} (st : Storage k) :
    st.advance.initialCarry = st.initialCarry := rfl

/-! ### The check on SEEDED -/

theorem State.ifSeeded_of_seeded {s : State} (h : s.seeded = true) (w : Nat) (t : State) : s.ifSeeded w t = t := by
  simp [State.ifSeeded, h]

theorem State.ifSeeded_of_unseeded {s : State} (h : s.seeded = false) (w : Nat) (t : State) :
    s.ifSeeded w t = s.raise .notSeeded w := by
  simp [State.ifSeeded, h]

/-- Everything READ, ADVANCE and RESET can be, by their check. -/
theorem State.ifSeeded_cases (s : State) (w : Nat) (t : State) :
    (s.seeded = true ∧ s.ifSeeded w t = t) ∨ (s.seeded = false ∧ s.ifSeeded w t = s.raise .notSeeded w) := by
  cases h : s.seeded
  · exact .inr ⟨rfl, State.ifSeeded_of_unseeded h w t⟩
  · exact .inl ⟨rfl, State.ifSeeded_of_seeded h w t⟩

/-! ### One consumed answer -/

theorem State.consume_done {s : State} (h : s.progress = .done) (a : Answer) : s.consume a = s := by
  simp [State.consume, h]

theorem State.consume_fail {s : State} (h : s.progress ≠ .done) :
    s.consume .fail = s.raise .entropyFail s.build.latency.construct := by
  unfold State.consume
  split <;> simp_all

theorem State.consume_rejected {s : State} (h : s.progress = .drawCarry) {v : Word}
    (hv : s.build.cMax.toNat ≤ v.toNat) : s.consume (.word v) = s := by
  simp [State.consume, h, State.drawCarryWord, acceptsCarry, Nat.not_lt.mpr hv]

theorem State.consume_accepted {s : State} (h : s.progress = .drawCarry) {v : Word}
    (hv : v.toNat < s.build.cMax.toNat) :
    s.consume (.word v) = { s with storage := s.storage.holdCarry v, progress := .fillRing } := by
  simp [State.consume, h, State.drawCarryWord, acceptsCarry, hv]

theorem State.consume_ringWord {s : State} (h : s.progress = .fillRing)
    (hl : s.storage.fillIndex ≠ lastIndex s.build.log2Cycle) (v : Word) :
    s.consume (.word v) = s.withStorage (s.storage.fill v) := by
  simp [State.consume, h, State.drawRingWord, Storage.fillsLast, hl]

theorem State.consume_lastRingWord {s : State} (h : s.progress = .fillRing)
    (hl : s.storage.fillIndex = lastIndex s.build.log2Cycle) (v : Word) :
    s.consume (.word v) = (s.withStorage (s.storage.fill v)).completeConstruct := by
  simp [State.consume, h, State.drawRingWord, Storage.fillsLast, hl]

/-- Everything a consumed answer can do. -/
theorem State.consume_cases (s : State) (a : Answer) :
    (s.progress = .done ∧ s.consume a = s) ∨
    (s.progress ≠ .done ∧ a = .fail ∧ s.consume a = s.raise .entropyFail s.build.latency.construct) ∨
    (∃ v, a = .word v ∧ s.progress = .drawCarry ∧ s.build.cMax.toNat ≤ v.toNat ∧ s.consume a = s) ∨
    (∃ v, a = .word v ∧ s.progress = .drawCarry ∧ v.toNat < s.build.cMax.toNat ∧
      s.consume a = { s with storage := s.storage.holdCarry v, progress := .fillRing }) ∨
    (∃ v, a = .word v ∧ s.progress = .fillRing ∧ s.storage.fillIndex ≠ lastIndex s.build.log2Cycle ∧
      s.consume a = s.withStorage (s.storage.fill v)) ∨
    (∃ v, a = .word v ∧ s.progress = .fillRing ∧ s.storage.fillIndex = lastIndex s.build.log2Cycle ∧
      s.consume a = (s.withStorage (s.storage.fill v)).completeConstruct) := by
  by_cases hd : s.progress = .done
  · exact .inl ⟨hd, s.consume_done hd a⟩
  cases a with
  | fail => exact .inr (.inl ⟨hd, rfl, State.consume_fail hd⟩)
  | word v =>
    by_cases hp : s.progress = .drawCarry
    · by_cases hv : v.toNat < s.build.cMax.toNat
      · exact .inr (.inr (.inr (.inl ⟨v, rfl, hp, hv, State.consume_accepted hp hv⟩)))
      · exact .inr (.inr (.inl ⟨v, rfl, hp, Nat.not_lt.mp hv, State.consume_rejected hp (Nat.not_lt.mp hv)⟩))
    · have hf : s.progress = .fillRing := by
        cases h : s.progress <;> simp_all
      by_cases hl : s.storage.fillIndex = lastIndex s.build.log2Cycle
      · exact .inr (.inr (.inr (.inr (.inr ⟨v, rfl, hf, hl, State.consume_lastRingWord hf hl v⟩))))
      · exact .inr (.inr (.inr (.inr (.inl ⟨v, rfl, hf, hl, State.consume_ringWord hf hl v⟩))))

theorem State.consume_build (s : State) (a : Answer) : (s.consume a).build = s.build := by
  rcases s.consume_cases a with ⟨_, h⟩ | ⟨_, _, h⟩ | ⟨_, _, _, _, h⟩ | ⟨_, _, _, _, h⟩ | ⟨_, _, _, _, h⟩ |
    ⟨_, _, _, _, h⟩ <;> rw [h] <;> rfl

theorem State.consume_inputs (s : State) (a : Answer) : (s.consume a).inputs = s.inputs := by
  rcases s.consume_cases a with ⟨_, h⟩ | ⟨_, _, h⟩ | ⟨_, _, _, _, h⟩ | ⟨_, _, _, _, h⟩ | ⟨_, _, _, _, h⟩ |
    ⟨_, _, _, _, h⟩ <;> rw [h] <;> rfl

theorem State.consume_entropy (s : State) (a : Answer) : (s.consume a).entropy = s.entropy := by
  rcases s.consume_cases a with ⟨_, h⟩ | ⟨_, _, h⟩ | ⟨_, _, _, _, h⟩ | ⟨_, _, _, _, h⟩ | ⟨_, _, _, _, h⟩ |
    ⟨_, _, _, _, h⟩ <;> rw [h] <;> rfl

/-! ### The draws of CONSTRUCT -/

@[simp] theorem State.drain_nil (s : State) : State.drain [] s = { s with entropy := [] } := rfl

theorem State.drain_done {s : State} (h : s.progress = .done) (as : List Answer) :
    State.drain as s = { s with entropy := as } := by
  cases as with
  | nil => rfl
  | cons a rest => simp [State.drain, h]

theorem State.drain_cons {s : State} (h : s.progress ≠ .done) (a : Answer) (as : List Answer) :
    State.drain (a :: as) s = State.drain as (s.consume a) := by
  simp [State.drain, h]

theorem State.drain_build (as : List Answer) (s : State) : (State.drain as s).build = s.build := by
  induction as generalizing s with
  | nil => rfl
  | cons a rest ih =>
    by_cases h : s.progress = .done
    · rw [State.drain_done h]
    · rw [State.drain_cons h, ih, State.consume_build]

theorem State.drain_inputs (as : List Answer) (s : State) : (State.drain as s).inputs = s.inputs := by
  induction as generalizing s with
  | nil => rfl
  | cons a rest ih =>
    by_cases h : s.progress = .done
    · rw [State.drain_done h]
    · rw [State.drain_cons h, ih, State.consume_inputs]

/-- A command that still draws has used every answer at hand (R18). -/
theorem State.drain_waits (as : List Answer) (s : State) (h : (State.drain as s).progress ≠ .done) :
    (State.drain as s).entropy = [] := by
  induction as generalizing s with
  | nil => rfl
  | cons a rest ih =>
    by_cases hp : s.progress = .done
    · rw [State.drain_done hp] at h
      exact absurd hp h
    · rw [State.drain_cons hp] at h ⊢
      exact ih _ h

/-- An invariant of one consumed answer that does not look at the answers at hand is one of all the draws. -/
theorem State.drain_induction {P : State → Prop}
    (hc : ∀ s a, s.progress ≠ .done → P s → P (s.consume a))
    (he : ∀ s as, P s → P { s with entropy := as })
    (as : List Answer) (s : State) (h : P s) : P (State.drain as s) := by
  induction as generalizing s with
  | nil => exact he s [] h
  | cons a rest ih =>
    by_cases hp : s.progress = .done
    · rw [State.drain_done hp]; exact he s _ h
    · rw [State.drain_cons hp]; exact ih _ (hc s a hp h)

/-! ### Commands and edges -/

theorem exec_read (s : State) :
    exec .read s = .next (s.ifSeeded s.build.latency.read (s.respond .ok s.storage.current s.build.latency.read)) :=
  rfl

theorem exec_advance (s : State) :
    exec .advance s = .next (s.ifSeeded s.build.latency.advance
      ((s.withStorage s.storage.advance).respond .ok 0#32 s.build.latency.advance)) := rfl

theorem exec_reset (s : State) :
    exec .reset s = .next (s.ifSeeded s.build.latency.reset
      ((s.withStorage s.storage.restore).respond .ok 0#32 s.build.latency.reset)) := rfl

/-- READ, ADVANCE and RESET with `SEEDED = 0` (R171). -/
theorem exec_read_of_unseeded {s : State} (h : s.seeded = false) :
    exec .read s = .next (s.raise .notSeeded s.build.latency.read) := by
  rw [exec_read, State.ifSeeded_of_unseeded h]

theorem exec_advance_of_unseeded {s : State} (h : s.seeded = false) :
    exec .advance s = .next (s.raise .notSeeded s.build.latency.advance) := by
  rw [exec_advance, State.ifSeeded_of_unseeded h]

theorem exec_reset_of_unseeded {s : State} (h : s.seeded = false) :
    exec .reset s = .next (s.raise .notSeeded s.build.latency.reset) := by
  rw [exec_reset, State.ifSeeded_of_unseeded h]

theorem exec_construct (s : State) : exec .construct s = .next (State.drain s.entropy s.beginConstruct) := rfl

/-- The handshakes of an edge, each with its condition on the state alone. -/
theorem State.edgeEvent_cases (s : State) (p : Pins) :
    (p.rstN = false ∧ s.edgeEvent p = .powerOn) ∨
    (p.rstN = true ∧ s.busy = false ∧ p.cmdValid = true ∧ s.edgeEvent p = .accept p.cmdOp) ∨
    (p.rstN = true ∧ s.busy = true ∧ s.progress = .done ∧ s.wait = 0 ∧ p.rspReady = true ∧ s.edgeEvent p = .take) ∨
    (p.rstN = true ∧ s.busy = true ∧ s.progress ≠ .done ∧ p.entValid = true ∧
      s.edgeEvent p = .answer p.answer) ∨
    (p.rstN = true ∧ (s.busy = false → p.cmdValid = false) ∧
      (s.busy = true → s.progress = .done → s.wait = 0 → p.rspReady = false) ∧
      (s.busy = true → s.progress ≠ .done → p.entValid = false) ∧ s.edgeEvent p = .quiet) := by
  cases hr : p.rstN <;> cases hb : s.busy <;> cases hc : p.cmdValid <;> cases hq : p.rspReady <;>
    cases he : p.entValid <;> by_cases hp : s.progress = .done <;> by_cases hw : s.wait = 0 <;>
    simp [State.edgeEvent, State.cmdReady, State.rspValid, State.entReady, hr, hb, hc, hq, he, hp, hw]

end Sys2Proof.Machine
end

