-- ==== Sys2Proof/Laws/PerInstr.lean ====
section
/-! SUPPORT. Facts about every command as syntax, one lemma per constructor of `Instr`. -/

/-- A command is well formed, its encoding decodes to it (R81, R91), in a byte and as a table word too. -/
def Sys2Proof.Laws.EncodingAgrees.Statement (i : Sys2Proof.Instr) : Prop :=
  i.wellFormed = true ∧ Sys2Proof.decode (Sys2Proof.encode i) = i ∧
    Sys2Proof.decodeTableWord 8 (Sys2Proof.encode i).toNat = some i

theorem Sys2Proof.Laws.EncodingAgrees.read : Sys2Proof.Laws.EncodingAgrees.Statement .read :=
  ⟨rfl, by decide, by decide⟩

theorem Sys2Proof.Laws.EncodingAgrees.advance : Sys2Proof.Laws.EncodingAgrees.Statement .advance :=
  ⟨rfl, by decide, by decide⟩

theorem Sys2Proof.Laws.EncodingAgrees.reset : Sys2Proof.Laws.EncodingAgrees.Statement .reset :=
  ⟨rfl, by decide, by decide⟩

theorem Sys2Proof.Laws.EncodingAgrees.construct : Sys2Proof.Laws.EncodingAgrees.Statement .construct :=
  ⟨rfl, by decide, by decide⟩
end

