-- ==== Sys2Proof/Laws/Run.lean ====
section
/-! SUPPORT. Runs of clock edges and of commands, one edge or command at a time. -/

namespace Sys2Proof.Machine

open Sys2Proof

@[simp] theorem runEdges_zero (s : State) : runEdges 0 s = .next s := rfl

/-- One edge, then the rest. -/
theorem runEdges_succ {s t : State} (h : step s = .next t) (n : Nat) : runEdges (n + 1) s = runEdges n t := by
  have hc : Sys2Proof.core.step s = .next t := h
  simp only [runEdges, Host.Core.run, hc]
  rfl

/-- `m` edges, then `n` more. -/
theorem runEdges_add {s t : State} {m : Nat} (h : runEdges m s = .next t) (n : Nat) :
    runEdges (m + n) s = runEdges n t := by
  induction m generalizing s with
  | zero => rw [runEdges_zero] at h; cases h; rw [Nat.zero_add]
  | succ m ih =>
    cases hs : step s with
    | next u => rw [runEdges_succ hs] at h; rw [Nat.add_right_comm, runEdges_succ hs, ih h]
    | fault r => exact nomatch r
    | refused r =>
      have hc : Sys2Proof.core.step s = .refused r := hs
      simp only [runEdges, Host.Core.run, hc] at h
      exact nomatch h

/-- A step on a state whose next pin sample is `p`: what the sample makes of the edge, with the sample used up. -/
theorem step_of_inputs {s : State} {p : Pins} {rest : List Pins} (h : s.inputs = p :: rest) :
    s.pins = p ∧ s.nextEdge = { s with inputs := rest } := by
  simp [State.pins, State.nextEdge, h]

theorem step_of_powerOn {s : State} (h : s.edgeEvent s.pins = .powerOn) :
    step s = .next s.nextEdge.powerOnReset := by
  unfold step; rw [h]

theorem step_of_accept {s : State} {op : BitVec 2} (h : s.edgeEvent s.pins = .accept op) :
    step s = exec (decode op) s.nextEdge := by
  unfold step; rw [h]

theorem step_of_take {s : State} (h : s.edgeEvent s.pins = .take) : step s = .next s.nextEdge.takeResponse := by
  unfold step; rw [h]

theorem step_of_answer {s : State} {a : Answer} (h : s.edgeEvent s.pins = .answer a) :
    step s = .next (s.nextEdge.consume a) := by
  unfold step; rw [h]

theorem step_of_quiet {s : State} (h : s.edgeEvent s.pins = .quiet) : step s = .next s.nextEdge.quietEdge := by
  unfold step; rw [h]

@[simp] theorem transactAll_nil (s : State) : transactAll [] s = some ([], s) := rfl

theorem transactAll_cons {i : Instr} {is : List Instr} {s t u : State} {r : Response} {rs : List Response}
    (h : transact i s = some (r, t)) (hs : transactAll is t = some (rs, u)) :
    transactAll (i :: is) s = some (r :: rs, u) := by
  simp [transactAll, h, hs]

/-- A transaction whose command is done. -/
theorem transact_of_done {i : Instr} {s t : State} (h : exec i s = .next t) (hd : t.progress = .done) :
    transact i s = some (⟨t.rspStatus, t.rspData⟩, t.takeResponse) := by
  simp [transact, h, hd]

/-- What a transaction that ends says of the command. -/
theorem exec_of_transact {i : Instr} {s u : State} {r : Response} (h : transact i s = some (r, u)) :
    ∃ t : State, exec i s = .next t ∧ t.progress = .done ∧ r = ⟨t.rspStatus, t.rspData⟩ ∧ u = t.takeResponse := by
  unfold transact at h
  cases hx : exec i s with
  | next t =>
    rw [hx] at h
    by_cases hd : t.progress = .done
    · simp only [hd, if_true, Option.some.injEq, Prod.mk.injEq] at h
      exact ⟨t, rfl, hd, h.1.symm, h.2.symm⟩
    · simp [hd] at h
  | fault r => exact nomatch r
  | refused r => rw [hx] at h; simp at h

end Sys2Proof.Machine
end

