-- ==== Sys2Proof/Tests/Slice0.lean ====
section
/-! SUPPORT. The model's own tests. `test_` theorems compare with values taken from spec/ (the rule or vector is named in
the comment); `witness_` theorems show states that meet the hypotheses of the statement named after them. -/

namespace Sys2Proof.Tests

open Sys2Proof Sys2Proof.Machine

/-! ## Small engines -/

/-- `CYCLE = 4`, canonical `C_MAX`. -/
def build4 : Build := ⟨2, 809430660#32, Config.noExtraCycles, by decide, by decide⟩

/-- `CYCLE = 2`, canonical `C_MAX`, one extra cycle of latency for every command. -/
def build2 : Build := ⟨1, 809430660#32, ⟨1, 1, 1, 1⟩, by decide, by decide⟩

/-- The state of R109: `ring = initial_ring = [1, 2, 3, 4]`, `carry = initial_carry = 100`, `cursor = 3`. -/
def seeded4 : State :=
  { State.powerOn build4 0 [] [] with
    storage := ⟨#v[1#32, 2#32, 3#32, 4#32], #v[1#32, 2#32, 3#32, 4#32], 100#32, 100#32, 3#2, 0#2, 100#32⟩
    seeded := true }

/-- A seeded engine of two words, with the rings of program P2. -/
def seeded2 : State :=
  { State.powerOn build2 0 [] [] with
    storage :=
      ⟨#v[0xFFFFFFFF#32, 0x80000000#32], #v[0xFFFFFFFF#32, 0x80000000#32], 0x303EEE83#32, 0x303EEE83#32, 1#1, 0#1, 0x303EEE83#32⟩
    seeded := true }

/-- An engine of two words after an `ENTROPY_FAIL`, its storage any words. -/
def fatal2 : State := { seeded2 with seeded := false, fatal := true }

/-- An engine of two words in the carry phase of a `CONSTRUCT`. -/
def drawing2 : State := fatal2.beginConstruct

/-- The same in the ring phase, the last word still to come. -/
def filling2 : State :=
  { drawing2 with
    progress := .fillRing
    storage := ⟨#v[7#32, 9#32], #v[7#32, 8#32], 1#32, 2#32, 0#1, 1#1, 5#32⟩ }

/-- A state with these answers at hand. -/
def withAnswers (s : State) (es : List Answer) : State := { s with entropy := es }

/-- A state with these pin samples to come. -/
def withPins (s : State) (ps : List Pins) : State := { s with inputs := ps }

/-- The next state. -/
def nextOf (o : Host.Outcome State Fault Refusal) (s : State) : State :=
  match o with
  | .next t => t
  | .fault _ => s
  | .refused _ => s

/-- The storage of R109 with other values, for the states an ADVANCE leaves. -/
def isResult (t : State) (ring : List Word) (carry : Word) (cursor : Nat) (status : RspStatus) (data : Word) : Bool :=
  decide (t.engineState.ring = ring ∧ t.storage.carry = carry ∧ t.engineState.cursor = cursor ∧
    t.rspStatus = status ∧ t.rspData = data)

/-! ## Decoding (R81, R91): the words written out -/

theorem test_decode_read : decodeTableWord 8 0b00000000 = some .read := by decide
theorem test_decode_advance : decodeTableWord 8 0b00000001 = some .advance := by decide
theorem test_decode_reset : decodeTableWord 8 0b00000010 = some .reset := by decide
theorem test_decode_construct : decodeTableWord 8 0b00000011 = some .construct := by decide

/-- Program P1: its encoding is `11 00 01 00 01 00 10 00`. -/
theorem test_encode_program_p1 :
    encodeProgram [.construct, .read, .advance, .read, .advance, .read, .reset, .read] =
      [0b11#2, 0b00#2, 0b01#2, 0b00#2, 0b01#2, 0b00#2, 0b10#2, 0b00#2] := by decide

/-- R92: the first two lines of program P1 as text. -/
theorem test_assemble_lines :
    assemble "CONSTRUCT   ; 11  -> OK\nREAD        ; 00  -> OK\n".toList = .ok [.construct, .read] := by decide

theorem test_assemble_lower_case_refused : assemble ['r', 'e', 'a', 'd'] = .error .unknownMnemonic := by decide

/-! ## Well-formedness: a term for each check that the check refuses -/

theorem test_refused_log2_cycle_zero : Build.ofParams 0 1 Config.noExtraCycles = none := by decide
theorem test_refused_c_max_zero : Build.ofParams 12 0 Config.noExtraCycles = none := by decide
theorem test_refused_c_max_too_wide : Build.ofParams 12 (2 ^ 32) Config.noExtraCycles = none := by decide
theorem test_admitted_boundaries :
    (Build.ofParams 1 1 Config.noExtraCycles).isSome = true ∧
    (Build.ofParams 1 (2 ^ 32 - 1) Config.noExtraCycles).isSome = true := by decide
theorem test_refused_byte : decodeBytes [0x04#8] = .error .bitsOutsideCommand := by decide
theorem test_refused_empty : decodeBytes [] = .error .noCommand := by decide
theorem test_refused_second_byte : decodeTableWord 16 0x0103 = none := by decide

/-! ## One command each -/

/-- R134. -/
theorem test_read_current_word :
    isResult (nextOf (exec .read seeded4) seeded4) [1#32, 2#32, 3#32, 4#32] 100#32 3 .ok 4#32 = true := by decide

/-- Vector R1 of spec/95. -/
theorem test_read_not_seeded : (nextOf (exec .read fatal2) seeded2).rspStatus = .notSeeded := by decide

/-- R151. -/
theorem test_advance_worked_example :
    isResult (nextOf (exec .advance seeded4) seeded4) [0xFFFFB63C#32, 2#32, 3#32, 4#32] 0#32 0 .ok 0#32 = true := by
  decide

/-- The rows A1 to A19 of spec/95 section 2.1: `q`, `c`, `x`, `carry'`, `word`. -/
def advanceVectors : List (Word × Word × Word × Word × Word) :=
  [(0x00000000#32, 0x00000000#32, 0x00000000#32, 0#32, 0xFFFFFFFE#32),
   (0x00000000#32, 0x00000001#32, 0x00000001#32, 0#32, 0xFFFFFFFD#32),
   (0x00000001#32, 0x00000000#32, 0x0000495E#32, 0#32, 0xFFFFB6A0#32),
   (0x00000001#32, 0x00000064#32, 0x000049C2#32, 0#32, 0xFFFFB63C#32),
   (0xFFFFFFFF#32, 0x00000064#32, 0x00000064#32, 18782#32, 0xFFFFFF9A#32),
   (0xFFFFFFFF#32, 0x00000000#32, 0xFFFFFFFF#32, 18781#32, 0xFFFFFFFF#32),
   (0xFFFFFFFF#32, 0xFFFFFFFF#32, 0xFFFFFFFF#32, 18782#32, 0xFFFFFFFF#32),
   (0x00000000#32, 0xFFFFFFFF#32, 0xFFFFFFFF#32, 0#32, 0xFFFFFFFF#32),
   (0x00000000#32, 0xFFFFFFFE#32, 0xFFFFFFFE#32, 0#32, 0x00000000#32),
   (0xFFFFFFFF#32, 0x303EEE83#32, 0x303EEE83#32, 18782#32, 0xCFC1117B#32),
   (0x0006FA85#32, 0x00001629#32, 0x00000001#32, 2#32, 0xFFFFFFFD#32),
   (0x0006FA85#32, 0x00001628#32, 0xFFFFFFFF#32, 1#32, 0xFFFFFFFF#32),
   (0x000A77C7#32, 0x000045ED#32, 0x00000002#32, 3#32, 0xFFFFFFFC#32),
   (0x000A77C7#32, 0x000045EC#32, 0x00000001#32, 3#32, 0xFFFFFFFD#32),
   (0xFFFFFFFF#32, 0x0000495D#32, 0x0000495D#32, 18782#32, 0xFFFFB6A1#32),
   (0xFFFFFFFF#32, 0x00000001#32, 0x00000001#32, 18782#32, 0xFFFFFFFD#32),
   (0x12345678#32, 0x000587C4#32, 0x9BE5850B#32, 1335#32, 0x641A7AF3#32),
   (0x80000000#32, 0x0000495E#32, 0x00006E0D#32, 9391#32, 0xFFFF91F1#32),
   (0xDEADBEEF#32, 0xCAFEBABE#32, 0x1A3D3D52#32, 16338#32, 0xE5C2C2AC#32)]

theorem test_advance_datapath_vectors :
    (advanceVectors.all fun (q, c, x, c', word) =>
      decide (mwcStep q c = (x, c') ∧ Config.subtrahend - x = word)) = true := by decide

/-- S4 of spec/95 section 2.3, the storage after program P1's ADVANCE commands. -/
theorem test_reset_restores :
    isResult (nextOf (exec .reset { seeded4 with storage := seeded4.storage.advance.advance }) seeded4)
      [1#32, 2#32, 3#32, 4#32] 100#32 3 .ok 0#32 = true := by decide

/-- S2 of spec/95 section 2.3. -/
theorem test_reset_not_seeded :
    (nextOf (exec .reset fatal2) seeded2).rspStatus = .notSeeded ∧
    (nextOf (exec .reset fatal2) seeded2).fatal = true := by decide

/-- C1 of spec/95 section 2.2, on an engine whose previous storage is not specified. -/
theorem test_construct_c1 :
    isResult
      (nextOf (exec .construct (State.powerOn build4 0
        [.word 0x303EEE84#32, .word 0x303EEE83#32, .word 1#32, .word 2#32, .word 3#32, .word 4#32, .word 77#32] []))
        fatal2)
      [1#32, 2#32, 3#32, 4#32] 0x303EEE83#32 3 .ok 0#32 = true := by decide

/-- Program P3's first CONSTRUCT: the failure is the fourth answer, and the next one stays with the source. -/
theorem test_construct_p3_fails :
    let t := nextOf (exec .construct (State.powerOn build4 0
      [.word 5#32, .word 6#32, .word 7#32, .fail, .word 0#32] [])) seeded4
    t.rspStatus = .entropyFail ∧ t.rspData = 0#32 ∧ t.takeResponse.status = 0b100#3 ∧ t.entropy = [.word 0#32] := by
  decide

/-- The canonical engine right after reset accepts a command and answers `NOT_SEEDED` (R48, R171). -/
theorem test_reset_state_answers_not_seeded :
    (nextOf (step (State.reset.withFetchWord 8 0b00)) seeded4).rspStatus = .notSeeded := by decide

/-! ## Witnesses of the statements' hypotheses -/

/-- Two concrete states that meet the invariant are `seeded2` and `filling2`. -/
theorem inv_seeded2 : seeded2.Inv :=
  ⟨by decide, by decide, by decide, by decide, by decide, by decide, by decide, by decide, by decide⟩

theorem inv_filling2 : filling2.Inv :=
  ⟨by decide, by decide, by decide, by decide, by decide, by decide, by decide, by decide, by decide⟩

/-- The hypothesis `seeded2.Inv` with other pins and answers. -/
theorem inv_withPins {s : State} (h : s.Inv) (ps : List Pins) : (withPins s ps).Inv :=
  ⟨h.1, h.2, h.3, h.4, h.5, h.6, h.7, h.8, h.9⟩

theorem inv_seeded2_withAnswers (es : List Answer) (ps : List Pins) : (withPins (withAnswers seeded2 es) ps).Inv :=
  ⟨by simp [withPins, withAnswers, seeded2, State.powerOn],
   by intro _; exact inv_seeded2.2 rfl, by intro _; exact inv_seeded2.3 rfl,
   by intro _; rfl, fun h => absurd rfl h, fun h => absurd rfl h, (fun h => nomatch h), (fun h => nomatch h),
   fun h => absurd rfl h⟩

/-! ### Encoding and build -/

theorem witness_TableWordsDecode : 4 ≤ 4 ∧ decodeTableWord 8 4 = none := by decide

theorem witness_AssemblerReadsListings :
    (∀ line ∈ [(Instr.read, ['x']), (Instr.construct, [])], '\n' ∉ line.2) ∧
    assemble (listing [(.read, ['x']), (.construct, [])]) = .ok [.read, .construct] := by decide

theorem witness_BuildAdmitsExactlyTheSpecRanges :
    (∃ b, Build.ofParams 1 1 Config.noExtraCycles = some b) ∧
    ∃ b, Build.ofParams 1 (2 ^ 32 - 1) Config.noExtraCycles = some b :=
  ⟨Option.isSome_iff_exists.mp (by decide), Option.isSome_iff_exists.mp (by decide)⟩

theorem witness_BuildNeverChanges :
    (∃ t, step seeded2 = .next t) ∧ ∃ t, exec .advance seeded2 = .next t := ⟨⟨_, rfl⟩, _, rfl⟩

/-! ### READ, ADVANCE, RESET -/

theorem witness_ReadCompletes :
    seeded2.seeded = true ∧ fatal2.seeded = false ∧
    ∃ t u, exec .read seeded2 = .next t ∧ exec .read t.takeResponse = .next u :=
  ⟨rfl, rfl, _, _, rfl, rfl⟩

/-- A CONSTRUCT whose answers end with the last ring word, then READ; a RESET, then READ; a seeded engine. -/
theorem witness_ReadReturnsTheNewestWord :
    (∃ t u r, transact .construct (withAnswers fatal2 ([.word 5#32, .word 7#32] ++ .word 9#32 :: [])) =
        some (⟨.ok, 0#32⟩, t) ∧ t.entropy = [] ∧ transact .read t = some (r, u) ∧ r.data = 9#32) ∧
    (∃ t u r, transact .reset seeded2 = some (⟨.ok, 0#32⟩, t) ∧ transact .read t = some (r, u)) ∧
    seeded2.seeded = true :=
  ⟨⟨_, _, _, rfl, rfl, rfl, rfl⟩, ⟨_, _, _, rfl, rfl⟩, rfl⟩

theorem witness_AdvanceCompletes : seeded2.seeded = true ∧ fatal2.seeded = false := ⟨rfl, rfl⟩

/-- Rows A7 (`hi = 18782`, no wrap) and A15 (the largest corrected `x`) of spec/95, and a seeded engine. -/
theorem witness_MultiplyCarryBounds :
    (hi32 (mwcProduct 0xFFFFFFFF#32 0xFFFFFFFF#32)).toNat = 18782 ∧
    mwcWraps (mwcProduct 0xFFFFFFFF#32 0x0000495D#32) = true ∧
    seeded2.seeded = true ∧ ∃ t, exec .advance seeded2 = .next t := ⟨by decide, by decide, rfl, _, rfl⟩

theorem witness_AdvanceDecomposesExactly : seeded2.seeded = true := rfl

theorem witness_AdvancesMoveTheCursor : seeded2.seeded = true := rfl

theorem witness_OutputIsLagRecurrence :
    seeded2.seeded = true ∧ seeded2.storage.cursor = lastIndex seeded2.build.log2Cycle := ⟨rfl, by decide⟩

theorem witness_ResetCompletes :
    seeded2.seeded = true ∧ fatal2.seeded = false ∧
    ∃ t u, exec .reset seeded2 = .next t ∧ exec .reset t.takeResponse = .next u := ⟨rfl, rfl, _, _, rfl, rfl⟩

theorem witness_ResetReturnsToConstruction :
    ∃ s0 s1 rs, transact .construct (withAnswers fatal2 [.word 5#32, .word 7#32, .word 9#32]) =
        some (⟨.ok, 0#32⟩, s0) ∧ Instr.construct ∉ [Instr.read, .advance, .advance, .reset, .advance] ∧
      transactAll [.read, .advance, .advance, .reset, .advance] s0 = some (rs, s1) :=
  ⟨_, _, _, rfl, by decide, rfl⟩

/-- An ADVANCE; and an edge with idle pins. -/
theorem witness_SnapshotChangesOnlyInConstruct :
    Instr.advance ≠ .construct ∧ (∃ t, exec .advance seeded2 = .next t) ∧
    (∃ t, step seeded2 = .next t) ∧ seeded2.pins.rstN = true ∧
    ¬ (seeded2.busy = false ∧ seeded2.pins.cmdValid = true ∧ seeded2.pins.cmdOp = 0b11#2) ∧
    ¬ (seeded2.busy = true ∧ seeded2.progress ≠ .done) :=
  ⟨by decide, ⟨_, rfl⟩, ⟨_, rfl⟩, rfl, by decide, by decide⟩

/-! ### CONSTRUCT -/

/-- The two boundaries of R103: `C_MAX` is rejected, `C_MAX - 1` is accepted; and no rejected candidate, with 0. -/
theorem witness_ConstructCompletes :
    ((∀ r ∈ [0x303EEE84#32, 0xFFFFFFFF#32], build2.cMax.toNat ≤ r.toNat) ∧ (0x303EEE83#32).toNat < build2.cMax.toNat ∧
      [7#32, 9#32].length = seeded2.cycle ∧
      (withAnswers seeded2
        [.word 0x303EEE84#32, .word 0xFFFFFFFF#32, .word 0x303EEE83#32, .word 7#32, .word 9#32, .fail]).entropy =
        [0x303EEE84#32, 0xFFFFFFFF#32].map .word ++ .word 0x303EEE83#32 :: ([7#32, 9#32].map .word ++ [.fail])) ∧
    (∀ r ∈ ([] : List Word), build2.cMax.toNat ≤ r.toNat) ∧ (0#32).toNat < build2.cMax.toNat ∧
      [7#32, 9#32].length = seeded2.cycle ∧
      (withAnswers seeded2 [.word 0#32, .word 7#32, .word 9#32]).entropy =
        ([] : List Word).map .word ++ .word 0#32 :: ([7#32, 9#32].map .word ++ []) :=
  ⟨⟨by simp [build2], by simp [build2], rfl, rfl⟩, by simp, by simp [build2], rfl, rfl⟩

/-- The failure at the first draw; and, after a rejected candidate, at the last ring word. -/
theorem witness_ConstructFailsAtTheFailedDraw :
    ((∀ r ∈ ([] : List Word), build2.cMax.toNat ≤ r.toNat) ∧
      (∀ v ∈ ([] : List Word).head?, v.toNat < build2.cMax.toNat) ∧ ([] : List Word).length ≤ seeded2.cycle ∧
      (withAnswers seeded2 [.fail]).entropy =
        ([] : List Word).map .word ++ (([] : List Word).map .word ++ .fail :: [])) ∧
    (∀ r ∈ [0x303EEE84#32], build2.cMax.toNat ≤ r.toNat) ∧
      (∀ v ∈ [0x303EEE83#32, 7#32].head?, v.toNat < build2.cMax.toNat) ∧
      [0x303EEE83#32, 7#32].length ≤ seeded2.cycle ∧
      (withAnswers seeded2 [.word 0x303EEE84#32, .word 0x303EEE83#32, .word 7#32, .fail, .fail]).entropy =
        [0x303EEE84#32].map .word ++ ([0x303EEE83#32, 7#32].map .word ++ .fail :: [.fail]) :=
  ⟨⟨by simp, by simp, by decide, rfl⟩, by simp [build2], by simp [build2], by decide, rfl⟩

/-- No answer at all; and all but the last ring word; with edges at which the source answers nothing. -/
theorem witness_ConstructWaitsForTheSource :
    ((∀ r ∈ ([] : List Word), build2.cMax.toNat ≤ r.toNat) ∧
      (∀ v ∈ ([] : List Word).head?, v.toNat < build2.cMax.toNat) ∧ ([] : List Word).length ≤ seeded2.cycle ∧
      seeded2.entropy = ([] : List Word).map .word ++ ([] : List Word).map .word) ∧
    ((∀ r ∈ [0x303EEE84#32], build2.cMax.toNat ≤ r.toNat) ∧
      (∀ v ∈ [0x303EEE83#32, 7#32].head?, v.toNat < build2.cMax.toNat) ∧
      [0x303EEE83#32, 7#32].length ≤ seeded2.cycle ∧
      (withAnswers seeded2 [.word 0x303EEE84#32, .word 0x303EEE83#32, .word 7#32]).entropy =
        [0x303EEE84#32].map .word ++ [0x303EEE83#32, 7#32].map .word) ∧
    ∀ p ∈ [({} : Pins), { entErr := true }], p.rstN = true ∧ p.entValid = false :=
  ⟨⟨by simp, by simp, by decide, rfl⟩, ⟨by simp [build2], by simp [build2], by decide, rfl⟩, by decide⟩

/-- One that completes and one that fails. -/
theorem witness_ConstructConsumesExactly :
    (∃ t, exec .construct (withAnswers fatal2 [.word 0x303EEE84#32, .word 5#32, .word 7#32, .word 9#32]) = .next t ∧
      t.progress = .done ∧ t.rspStatus = .ok) ∧
    (∃ t, exec .construct (withAnswers fatal2 [.word 5#32, .word 7#32, .fail]) = .next t ∧
      t.progress = .done ∧ t.rspStatus = .entropyFail) := ⟨⟨_, rfl, rfl, rfl⟩, _, rfl, rfl, rfl⟩

theorem witness_ConstructForgetsThePast :
    ∃ s t u v : State, s ≠ t ∧ s.build = t.build ∧ s.entropy = t.entropy ∧ exec .construct s = .next u ∧
      exec .construct t = .next v ∧ u.progress = .done ∧ u.rspStatus = .ok :=
  ⟨withAnswers seeded2 [.word 5#32, .word 7#32, .word 9#32], withAnswers filling2 [.word 5#32, .word 7#32, .word 9#32],
    _, _, by decide, rfl, rfl, rfl, rfl, rfl, rfl⟩

/-- A candidate at `C_MAX` and one just below it. -/
theorem witness_CarryCandidateAtTheHandshake :
    (∀ v ∈ [0x303EEE84#32, 0x303EEE83#32], ∃ p : Pins, p.entData = v ∧ (withPins drawing2 [p]).inputs = p :: [] ∧
      p.rstN = true ∧ drawing2.busy = true ∧ drawing2.progress = .drawCarry ∧ p.entValid = true ∧ p.entErr = false) ∧
    ¬ (0x303EEE84#32).toNat < build2.cMax.toNat ∧ (0x303EEE83#32).toNat < build2.cMax.toNat :=
  ⟨fun v _ => ⟨{ entValid := true, entData := v }, rfl, rfl, rfl, rfl, rfl, rfl, rfl⟩, by decide, by decide⟩

/-- A CONSTRUCT that waits, at its acceptance and at an edge; and one at the handshake of its last ring word. -/
theorem witness_ConstructWritesTakeEffectAtItsEnd :
    (∃ t, exec .construct (withAnswers fatal2 [.word 5#32, .word 7#32]) = .next t ∧ t.progress ≠ .done) ∧
    (∃ t, step (withPins drawing2 [answerEdge (.word 5#32)]) = .next t ∧
      (withPins drawing2 [answerEdge (.word 5#32)]).pins.rstN = true ∧ t.progress ≠ .done) ∧
    (withPins filling2 [answerEdge (.word 9#32)]).pins.rstN = true ∧ filling2.busy = true ∧
      filling2.progress = .fillRing ∧ filling2.storage.fillIndex = lastIndex filling2.build.log2Cycle ∧
      (withPins filling2 [answerEdge (.word 9#32)]).pins.entValid = true ∧
      (withPins filling2 [answerEdge (.word 9#32)]).pins.entErr = false :=
  ⟨⟨_, rfl, by decide⟩, ⟨_, rfl, rfl, by decide⟩, rfl, rfl, rfl, by decide, rfl, rfl⟩

/-- The answers of a CONSTRUCT on two words, with pauses. -/
def pausedAnswers : List (Nat × Answer) :=
  [(2, .word 0x303EEE84#32), (0, .word 0x303EEE83#32), (1, .word 7#32), (3, .word 9#32)]

theorem witness_HandshakesRefineAtomicConstruct :
    fatal2.busy = false ∧ fatal2.entropy = [] ∧
    (withPins fatal2 (commandEdge 0b11#2 :: (answerEdges pausedAnswers ++ []))).inputs =
      commandEdge 0b11#2 :: (answerEdges pausedAnswers ++ []) ∧
    (∃ t, exec .construct (withAnswers fatal2 (pausedAnswers.map Prod.snd)) = .next t) ∧
    ∀ pre last, pausedAnswers = pre ++ [last] → ∀ u,
      exec .construct (withAnswers fatal2 (pre.map Prod.snd)) = .next u → u.progress ≠ .done := by
  refine ⟨rfl, rfl, rfl, ⟨_, rfl⟩, fun pre last h u hu => ?_⟩
  have hpre : pre = pausedAnswers.dropLast := by rw [h, List.dropLast_concat]
  subst hpre
  cases hu
  decide

/-! ### Errors and status bits -/

theorem witness_UnseededCommandsAnswerNotSeeded :
    Instr.advance ≠ .construct ∧ fatal2.seeded = false ∧
    ∃ t, exec .construct (withAnswers fatal2 [.fail]) = .next t ∧ t.progress = .done :=
  ⟨by decide, rfl, _, rfl, rfl⟩

theorem witness_OnlyConstructRecovers :
    ∃ s0 s1, transact .construct (withAnswers seeded2 [.fail, .word 5#32, .word 7#32, .word 9#32]) =
        some (⟨.entropyFail, 0#32⟩, s0) ∧ Instr.construct ∉ [Instr.read, .advance, .reset] ∧
      transact .construct s0 = some (⟨.ok, 0#32⟩, s1) := ⟨_, _, rfl, by decide, rfl⟩

/-- `SEEDED` set at the last ring word, set at the acceptance of a CONSTRUCT with its answers at hand, cleared at an
acceptance, cleared at power-on reset. -/
theorem witness_SeededChangesOnlyByConstruct :
    ((withPins filling2 [answerEdge (.word 9#32)]).Inv ∧
      ∃ t, step (withPins filling2 [answerEdge (.word 9#32)]) = .next t ∧ filling2.seeded = false ∧ t.seeded = true) ∧
    (fatal2.Inv ∧ (withPins (withAnswers seeded2 [.word 5#32]) [commandEdge 0b11#2]).Inv ∧
      ∃ t, step (withPins (withAnswers seeded2 [.word 5#32]) [commandEdge 0b11#2]) = .next t ∧
        seeded2.seeded = true ∧ t.seeded = false) ∧
    (∃ t, step (withPins (withAnswers fatal2 [.word 5#32, .word 7#32, .word 9#32]) [commandEdge 0b11#2]) = .next t ∧
      fatal2.seeded = false ∧ t.seeded = true) ∧
    (withPins seeded2 [{ rstN := false }]).Inv ∧
      ∃ t, step (withPins seeded2 [{ rstN := false }]) = .next t ∧ t.seeded = false :=
  ⟨⟨inv_withPins inv_filling2 _, _, rfl, rfl, rfl⟩,
   ⟨⟨by decide, by decide, by decide, by decide, by decide, by decide, by decide, by decide, by decide⟩,
    inv_seeded2_withAnswers _ _, _, rfl, rfl, rfl⟩,
   ⟨_, rfl, rfl, rfl⟩, inv_withPins inv_seeded2 _, _, rfl, rfl⟩

/-- `FATAL` set by a failed answer, cleared by the last ring word, cleared by power-on reset. -/
theorem witness_FatalChangesOnlyByConstructOrPowerOn :
    (∃ t, step { withPins drawing2 [answerEdge .fail] with fatal := false } = .next t ∧ t.fatal = true) ∧
    (∃ t, step (withPins filling2 [answerEdge (.word 9#32)]) = .next t ∧ filling2.fatal = true ∧ t.fatal = false) ∧
    (∃ t, step (withPins fatal2 [{ rstN := false }]) = .next t ∧ fatal2.fatal = true ∧ t.fatal = false) :=
  ⟨⟨_, rfl, rfl⟩, ⟨_, rfl, rfl, rfl⟩, _, rfl, rfl, rfl⟩

theorem witness_BusyFromAcceptanceToResponse :
    ∃ t, step (withPins seeded2 [commandEdge 0b00#2]) = .next t ∧ t.busy = true := ⟨_, rfl, rfl⟩

theorem witness_OnlyReadReturnsData :
    (∃ t, exec .advance seeded2 = .next t ∧ t.progress = .done ∧ Instr.advance ≠ .read) ∧
    (∃ t, exec .read fatal2 = .next t ∧ t.progress = .done ∧ t.rspStatus ≠ .ok) :=
  ⟨⟨_, rfl, rfl, by decide⟩, _, rfl, rfl, by decide⟩

theorem witness_StatusBits : filling2.Inv ∧ filling2.progress ≠ .done := ⟨inv_filling2, by decide⟩

theorem witness_CarryBoundedAfterConstructOrReset :
    (seeded2.Inv ∧ ∃ t, exec .reset seeded2 = .next t ∧ t.progress = .done ∧ t.rspStatus = .ok) ∧
    (withPins (withAnswers seeded2 [.word 0x303EEE83#32, .word 7#32, .word 9#32]) []).Inv ∧
      ∃ t, exec .construct (withPins (withAnswers seeded2 [.word 0x303EEE83#32, .word 7#32, .word 9#32]) []) = .next t ∧
        t.progress = .done ∧ t.rspStatus = .ok :=
  ⟨⟨inv_seeded2, _, rfl, rfl, rfl⟩, inv_seeded2_withAnswers _ _, _, rfl, rfl, rfl⟩

/-! ### Channels and edges -/

theorem witness_StepRunsTheAcceptedCommand :
    (withPins seeded2 [commandEdge 0b01#2]).inputs = commandEdge 0b01#2 :: [] ∧
    (commandEdge 0b01#2).rstN = true ∧ (commandEdge 0b01#2).cmdValid = true ∧ seeded2.busy = false := by decide

theorem witness_FetchWordIsRunNext : decodeTableWord 8 3 = some .construct := by decide

/-- The three cases: power-on reset, `BUSY`, no `cmd_valid`. -/
theorem witness_CommandPinsOnlySampledAtAcceptance :
    (∃ p q : Pins, p ≠ q ∧ q = { p with cmdValid := q.cmdValid, cmdOp := q.cmdOp } ∧ p.rstN = false) ∧
    (∃ p q : Pins, p ≠ q ∧ q = { p with cmdValid := q.cmdValid, cmdOp := q.cmdOp } ∧ drawing2.busy = true) ∧
    (∃ p q : Pins, p ≠ q ∧ q = { p with cmdValid := q.cmdValid, cmdOp := q.cmdOp } ∧
      p.cmdValid = false ∧ q.cmdValid = false) :=
  ⟨⟨{ rstN := false }, { rstN := false, cmdValid := true }, by decide, rfl, rfl⟩,
   ⟨{}, commandEdge 0b11#2, by decide, rfl, rfl⟩, {}, { cmdOp := 0b11#2 }, by decide, rfl, rfl, rfl⟩

/-- No draw asked for; no answer presented; a failed answer with other data; no response presented. -/
theorem witness_AnswersOnlySeenWhenRequested :
    (∃ p q : Pins, p ≠ q ∧ q = { p with entValid := q.entValid, entData := q.entData, entErr := q.entErr } ∧
      seeded2.entReady p.rstN = false) ∧
    (∃ p q : Pins, p ≠ q ∧ q = { p with entValid := q.entValid, entData := q.entData, entErr := q.entErr } ∧
      p.entValid = false ∧ q.entValid = false) ∧
    (∃ p q : Pins, p ≠ q ∧ q = { p with entValid := q.entValid, entData := q.entData, entErr := q.entErr } ∧
      p.entValid = q.entValid ∧ p.entErr = true ∧ q.entErr = true) ∧
    (∃ p q : Pins, p ≠ q ∧ q = { p with rspReady := q.rspReady } ∧ drawing2.rspValid p.rstN = false) :=
  ⟨⟨{}, answerEdge .fail, by decide, rfl, by decide⟩, ⟨{}, { entData := 1#32 }, by decide, rfl, rfl, rfl⟩,
   ⟨answerEdge .fail, { answerEdge .fail with entData := 1#32 }, by decide, rfl, rfl, rfl, rfl⟩,
   {}, { rspReady := true }, by decide, rfl, by decide⟩

/-- A response presented, taken and not taken. -/
theorem witness_ResponseHeldUntilTaken :
    (∃ p : Pins, (withPins { seeded2 with busy := true } [p]).inputs = p :: [] ∧ p.rstN = true ∧
      ({ seeded2 with busy := true } : State).rspValid true = true ∧ p.rspReady = false) ∧
    (∃ p : Pins, (withPins { seeded2 with busy := true } [p]).inputs = p :: [] ∧ p.rstN = true ∧
      ({ seeded2 with busy := true } : State).rspValid true = true ∧ p.rspReady = true) :=
  ⟨⟨{}, rfl, rfl, by decide, rfl⟩, { rspReady := true }, rfl, rfl, by decide, rfl⟩

/-- At no and at all of the latency of one cycle. -/
theorem witness_ResponseAppearsAfterLatency :
    Instr.read ≠ .construct ∧ seeded2.busy = false ∧
    (withPins seeded2 (commandEdge (encode .read) :: ([{ rspReady := true }] ++ []))).inputs =
      commandEdge (encode .read) :: ([{ rspReady := true }] ++ []) ∧
    (∀ p ∈ [({ rspReady := true } : Pins)], p.rstN = true) ∧
    [({ rspReady := true } : Pins)].length = latencyOf seeded2.build .read ∧
    ([] : List Pins).length < latencyOf seeded2.build .read := by decide

/-- An engine that accepts, and one that draws. -/
theorem witness_ReadySignalsExclusive :
    (seeded2.outputs true).cmdReady = true ∧ (drawing2.outputs true).entReady = true := by decide

/-- From the middle of a CONSTRUCT, with a command and an answer presented at the same edge. -/
theorem witness_PowerOnOverridesEverything :
    (withPins filling2 [{ answerEdge .fail with rstN := false, cmdValid := true }]).pins.rstN = false := by decide

theorem witness_IdleKeepsItsState :
    seeded2.busy = false ∧ seeded2.pins.rstN = true ∧ seeded2.pins.cmdValid = false := by decide

/-- A seeded engine that accepts an ADVANCE, and a CONSTRUCT that completes at this edge. -/
theorem witness_StepKeepsInvariant :
    ((withPins seeded2 [commandEdge 0b01#2]).Inv ∧ ∃ t, step (withPins seeded2 [commandEdge 0b01#2]) = .next t) ∧
    (withPins filling2 [answerEdge (.word 9#32)]).Inv ∧
      ∃ t, step (withPins filling2 [answerEdge (.word 9#32)]) = .next t :=
  ⟨⟨inv_withPins inv_seeded2 _, _, rfl⟩, inv_withPins inv_filling2 _, _, rfl⟩

/-- An unseeded engine between commands and one that draws a carry, each beside other storage. -/
theorem witness_UnspecifiedStorageNeverObserved :
    fatal2.seeded = false ∧ fatal2.progress ≠ .fillRing ∧ drawing2.seeded = false ∧ drawing2.progress ≠ .fillRing ∧
    (fatal2.storage : Storage 1) ≠ filling2.storage :=
  ⟨rfl, by decide, rfl, by decide, fun h => absurd (congrArg Storage.carry h) (by decide)⟩

end Sys2Proof.Tests
end

section
/-! PROOFS. Build parameters (spec/00_scope.md R8, R9). -/

namespace Sys2Proof

/-- The admitted ranges, as the check of `Build.ofParams` writes them (R8, R9). -/
theorem Build.ofParams_isSome_iff (k c : Nat) (l : Latency) :
    (Build.ofParams k c l).isSome = true ↔ 1 ≤ k ∧ 1 ≤ c ∧ c < 2 ^ 32 := by
  unfold Build.ofParams
  split
  case isTrue h => simpa using h
  case isFalse h => simpa using h

/-- A build made from parameters has exactly these parameters. -/
theorem Build.ofParams_eq_some {k c : Nat} {l : Latency} {b : Build} (h : Build.ofParams k c l = some b) :
    b.log2Cycle = k ∧ b.cMax.toNat = c ∧ b.latency = l := by
  unfold Build.ofParams at h
  split at h
  case isTrue hc =>
    cases h
    obtain ⟨_, _, hlt⟩ := hc
    exact ⟨rfl, by rw [BitVec.toNat_ofNat, Nat.mod_eq_of_lt hlt], rfl⟩
  case isFalse => cases h

/-- Settles O5. -/
theorem buildAdmitsExactlyTheSpecRanges : Obligations.BuildAdmitsExactlyTheSpecRanges := by
  refine ⟨fun k c l => ?_, fun k c l b h => ?_, by decide, by decide⟩
  · rw [Build.ofParams_isSome_iff]
    omega
  · obtain ⟨hk, hc, hl⟩ := Build.ofParams_eq_some h
    exact ⟨hk, by rw [Build.cycle, hk], hc, hl⟩

end Sys2Proof
end

section
/-! PROOFS. CONSTRUCT on the entropy handshakes against the atomic command (spec/00_scope.md R18, spec/30_encoding.md R84,
R88). The simulation: at every edge the engine on the pins is where the atomic command is after the answers consumed so far,
but for the model's own data `entropy` and `inputs`, which no draw reads. -/

namespace Sys2Proof.Machine

open Sys2Proof

/-! ### No draw reads the model's own data -/

/-- The engine with other answers at hand and other pin samples: the model's own data (log 6, log 7). -/
def State.withData (s : State) (es : List Answer) (ps : List Pins) : State := { s with entropy := es, inputs := ps }

/-- The engine with other pin samples. -/
def State.withInputs (s : State) (ps : List Pins) : State := s.withData s.entropy ps

@[simp] theorem State.withInputs_busy (s : State) (ps : List Pins) : (s.withInputs ps).busy = s.busy := rfl
@[simp] theorem State.withInputs_progress (s : State) (ps : List Pins) : (s.withInputs ps).progress = s.progress := rfl
@[simp] theorem State.withInputs_entropy (s : State) (ps : List Pins) : (s.withInputs ps).entropy = s.entropy := rfl
@[simp] theorem State.withInputs_self (s : State) : s.withInputs s.inputs = s := rfl

@[simp] theorem State.withInputs_pins (s : State) (p : Pins) (ps : List Pins) : (s.withInputs (p :: ps)).pins = p := rfl
@[simp] theorem State.withInputs_nextEdge (s : State) (p : Pins) (ps : List Pins) :
    (s.withInputs (p :: ps)).nextEdge = s.withInputs ps := rfl

theorem State.beginConstruct_withInputs (s : State) (ps : List Pins) :
    (s.withInputs ps).beginConstruct = s.beginConstruct.withInputs ps := rfl

theorem State.consume_withData (s : State) (es : List Answer) (ps : List Pins) (a : Answer) :
    (s.withData es ps).consume a = (s.consume a).withData es ps := by
  rcases s.consume_cases a with ⟨hp, h⟩ | ⟨hp, rfl, h⟩ | ⟨v, rfl, hp, hv, h⟩ | ⟨v, rfl, hp, hv, h⟩ |
    ⟨v, rfl, hp, hl, h⟩ | ⟨v, rfl, hp, hl, h⟩ <;> rw [h]
  · exact State.consume_done (s := s.withData es ps) hp a
  · exact State.consume_fail (s := s.withData es ps) hp
  · exact State.consume_rejected (s := s.withData es ps) hp hv
  · exact State.consume_accepted (s := s.withData es ps) hp hv
  · exact State.consume_ringWord (s := s.withData es ps) hp hl v
  · exact State.consume_lastRingWord (s := s.withData es ps) hp hl v

theorem State.consume_withInputs (s : State) (ps : List Pins) (a : Answer) :
    (s.withInputs ps).consume a = (s.consume a).withInputs ps := by
  rw [State.withInputs, s.consume_withData, State.withInputs, s.consume_entropy]

/-- The draws replace the answers at hand and pass the pin samples through. -/
theorem State.drain_withData (as : List Answer) (s : State) (es : List Answer) (ps : List Pins) :
    State.drain as (s.withData es ps) = (State.drain as s).withInputs ps := by
  induction as generalizing s with
  | nil => rfl
  | cons a rest ih =>
    by_cases hp : s.progress = .done
    · rw [State.drain_done hp, State.drain_done (s := s.withData es ps) hp]
      rfl
    · rw [State.drain_cons hp, State.drain_cons (s := s.withData es ps) hp, s.consume_withData, ih]

theorem State.drain_withInputs (as : List Answer) (s : State) (ps : List Pins) :
    State.drain as (s.withInputs ps) = (State.drain as s).withInputs ps :=
  State.drain_withData as s s.entropy ps

theorem State.drain_nil_of_entropy {s : State} (h : s.entropy = []) : State.drain [] s = s := by
  rw [State.drain_nil, ← h]

/-- A command that still draws after some answers drew before them. -/
theorem State.progress_ne_done_of_drain {as : List Answer} {s : State}
    (h : (State.drain as s).progress ≠ .done) : s.progress ≠ .done := by
  intro hd
  rw [State.drain_done hd] at h
  exact h hd

theorem State.consume_busy {s : State} (hb : s.busy = true) (a : Answer) : (s.consume a).busy = true := by
  rcases s.consume_cases a with ⟨_, h⟩ | ⟨_, _, h⟩ | ⟨_, _, _, _, h⟩ | ⟨_, _, _, _, h⟩ | ⟨_, _, _, _, h⟩ |
    ⟨_, _, _, _, h⟩ <;> simp [h, hb]

/-! ### The edges of a CONSTRUCT in progress -/

@[simp] theorem answerEdge_rstN (a : Answer) : (answerEdge a).rstN = true := by cases a <;> rfl

@[simp] theorem answerEdge_entValid (a : Answer) : (answerEdge a).entValid = true := by cases a <;> rfl

/-- The source's pins carry the answer it gives (R88, R89). -/
@[simp] theorem answerEdge_answer (a : Answer) : (answerEdge a).answer = a := by cases a <;> rfl

/-- An outstanding draw takes what the entropy pins carry (R88). -/
theorem step_of_drawing {s : State} (hr : s.pins.rstN = true) (hb : s.busy = true) (hp : s.progress ≠ .done)
    (hv : s.pins.entValid = true) : step s = .next (s.nextEdge.consume s.pins.answer) := by
  have hev : s.edgeEvent s.pins = .answer s.pins.answer := by
    simp [State.edgeEvent, State.cmdReady, State.rspValid, State.entReady, hr, hb, hp, hv]
  exact step_of_answer hev

/-- An idle engine accepts the CONSTRUCT on its pins (R84); with no answer at hand it waits for its first draw. -/
theorem step_commandEdge_construct {s : State} (hb : s.busy = false) (he : s.entropy = []) (ps : List Pins) :
    step (s.withInputs (commandEdge 0b11#2 :: ps)) = .next (s.beginConstruct.withInputs ps) := by
  have hev : (s.withInputs (commandEdge 0b11#2 :: ps)).edgeEvent (commandEdge 0b11#2) = .accept 0b11#2 := by
    simp [State.edgeEvent, State.cmdReady, commandEdge, hb]
  have hd : decode 0b11#2 = .construct := by decide
  have hdrain : State.drain [] s.beginConstruct = s.beginConstruct := State.drain_nil_of_entropy he
  rw [step_of_accept hev, hd, State.withInputs_nextEdge, exec_construct, State.withInputs_entropy, he,
    State.beginConstruct_withInputs, State.drain_withInputs, hdrain]

theorem State.quietEdge_of_drawing {s : State} (hp : s.progress ≠ .done) : s.quietEdge = s := by
  simp [State.quietEdge, hp]

/-- A draw waits through an idle edge (R209). -/
theorem step_idle_of_drawing {s : State} (hb : s.busy = true) (hp : s.progress ≠ .done) (ps : List Pins) :
    step (s.withInputs ({} :: ps)) = .next (s.withInputs ps) := by
  have hev : (s.withInputs ({} :: ps)).edgeEvent {} = .quiet := by
    simp [State.edgeEvent, State.cmdReady, hb]
  rw [step_of_quiet hev, State.withInputs_nextEdge, State.quietEdge_of_drawing (s := s.withInputs ps) hp]

theorem runEdges_idle_of_drawing {s : State} (hb : s.busy = true) (hp : s.progress ≠ .done) (n : Nat)
    (ps : List Pins) : runEdges n (s.withInputs (List.replicate n ({} : Pins) ++ ps)) = .next (s.withInputs ps) := by
  induction n with
  | zero => rfl
  | succ n ih =>
    rw [List.replicate_succ, List.cons_append, runEdges_succ (step_idle_of_drawing hb hp _), ih]

/-- An outstanding draw takes the source's answer at its handshake (R88). -/
theorem step_answerEdge_of_drawing {s : State} (hb : s.busy = true) (hp : s.progress ≠ .done) (a : Answer)
    (ps : List Pins) : step (s.withInputs (answerEdge a :: ps)) = .next ((s.consume a).withInputs ps) := by
  rw [step_of_drawing (by simp) (by simpa using hb) (by simpa using hp) (by simp), State.withInputs_pins,
    answerEdge_answer, State.withInputs_nextEdge, State.consume_withInputs]

/-- One answer of the source after its pause. -/
theorem runEdges_pausedAnswer {s : State} (hb : s.busy = true) (hp : s.progress ≠ .done) (gap : Nat) (a : Answer)
    (ps : List Pins) :
    runEdges (gap + 1) (s.withInputs (List.replicate gap ({} : Pins) ++ answerEdge a :: ps)) =
      .next ((s.consume a).withInputs ps) := by
  rw [runEdges_add (runEdges_idle_of_drawing hb hp gap _)]
  exact runEdges_succ (step_answerEdge_of_drawing hb hp a ps) 0

/-- Answers taken one by one at their handshakes do what the draws do on all of them at once, where the command needs
every one. -/
theorem runEdges_answerEdges (gs : List (Nat × Answer)) {s : State} (hb : s.busy = true) (he : s.entropy = [])
    (hneed : ∀ pre last, gs = pre ++ [last] → (State.drain (pre.map Prod.snd) s).progress ≠ .done)
    (rest : List Pins) :
    runEdges (answerEdges gs).length (s.withInputs (answerEdges gs ++ rest)) =
      .next ((State.drain (gs.map Prod.snd) s).withInputs rest) := by
  induction gs generalizing s with
  | nil =>
    rw [List.map_nil, State.drain_nil_of_entropy he]
    rfl
  | cons g gs ih =>
    obtain ⟨gap, a⟩ := g
    have hp : s.progress ≠ .done :=
      State.progress_ne_done_of_drain
        (hneed _ _ (List.dropLast_append_getLast (List.cons_ne_nil (gap, a) gs)).symm)
    have hneed' : ∀ pre last, gs = pre ++ [last] →
        (State.drain (pre.map Prod.snd) (s.consume a)).progress ≠ .done := by
      intro pre last hpre
      rw [← State.drain_cons hp]
      exact hneed ((gap, a) :: pre) last (by rw [hpre, List.cons_append])
    have hlen : (answerEdges ((gap, a) :: gs)).length = gap + 1 + (answerEdges gs).length := by
      simp [answerEdges]; omega
    have hpins : answerEdges ((gap, a) :: gs) ++ rest =
        List.replicate gap ({} : Pins) ++ answerEdge a :: (answerEdges gs ++ rest) := by simp [answerEdges]
    rw [hlen, hpins, runEdges_add (runEdges_pausedAnswer hb hp gap a _),
      ih (State.consume_busy hb a) ((s.consume_entropy a).trans he) hneed', List.map_cons, State.drain_cons hp]

/-! ### The refinement -/

/-- The draws do not depend on the answers the engine had at hand before. -/
theorem State.drain_beginConstruct_withEntropy (s : State) (as : List Answer) :
    State.drain as (State.beginConstruct { s with entropy := as }) = State.drain as s.beginConstruct := by
  have hi : (State.drain as s.beginConstruct).inputs = s.inputs := State.drain_inputs as s.beginConstruct
  refine (State.drain_withData as s.beginConstruct as s.inputs).trans ?_
  rw [← hi, State.withInputs_self]

/-- Settles O24, by the simulation `runEdges_answerEdges` from the accepting edge on. -/
theorem handshakesRefineAtomicConstruct : Obligations.HandshakesRefineAtomicConstruct := by
  intro s t gs rest hb he hi ht hneed
  have ht' : t = State.drain (gs.map Prod.snd) s.beginConstruct := by
    cases ht
    exact s.drain_beginConstruct_withEntropy _
  have hneed' : ∀ pre last, gs = pre ++ [last] →
      (State.drain (pre.map Prod.snd) s.beginConstruct).progress ≠ .done := by
    intro pre last hpre
    rw [← s.drain_beginConstruct_withEntropy]
    exact hneed pre last hpre _ (exec_construct _)
  have haccept : step s = .next (s.beginConstruct.withInputs (answerEdges gs ++ rest)) := by
    rw [← step_commandEdge_construct hb he, ← hi, State.withInputs_self]
  rw [Nat.add_comm, runEdges_succ haccept, runEdges_answerEdges gs (s := s.beginConstruct) rfl he hneed', ht']
  rfl

end Sys2Proof.Machine
end

section
/-! PROOFS. The writes of a CONSTRUCT that take effect together at its completion (spec/00_scope.md R16). -/

namespace Sys2Proof.Machine

open Sys2Proof

/-! ### What a CONSTRUCT in progress keeps -/

/-- The two states agree on the registers that a CONSTRUCT writes only when it ends (R16). -/
structure State.KeepsCommitted (s t : State) : Prop where
  carry : t.storage.carry = s.storage.carry
  initialCarry : t.storage.initialCarry = s.storage.initialCarry
  cursor : t.engineState.cursor = s.engineState.cursor
  fatal : t.fatal = s.fatal

theorem State.KeepsCommitted.trans {s t u : State} (h : s.KeepsCommitted t) (h' : t.KeepsCommitted u) :
    s.KeepsCommitted u :=
  ⟨h'.carry.trans h.carry, h'.initialCarry.trans h.initialCarry, h'.cursor.trans h.cursor, h'.fatal.trans h.fatal⟩

/-- An answer writes one of them only where it ends the command: by a failure or as the last ring word. -/
theorem State.consume_keepsCommitted {s : State} {a : Answer} (hd : (s.consume a).progress ≠ .done) :
    s.KeepsCommitted (s.consume a) := by
  rcases s.consume_cases a with ⟨_, h⟩ | ⟨_, _, h⟩ | ⟨_, _, _, _, h⟩ | ⟨_, _, _, _, h⟩ | ⟨_, _, _, _, h⟩ |
    ⟨_, _, _, _, h⟩ <;> rw [h] at hd ⊢
  · exact ⟨rfl, rfl, rfl, rfl⟩
  · exact absurd (State.raise_entropyFail_progress _ _) hd
  · exact ⟨rfl, rfl, rfl, rfl⟩
  · exact ⟨rfl, rfl, rfl, rfl⟩
  · exact ⟨rfl, rfl, rfl, rfl⟩
  · exact absurd (State.completeConstruct_progress _) hd

theorem State.drain_keepsCommitted {as : List Answer} {s : State} (hd : (State.drain as s).progress ≠ .done) :
    s.KeepsCommitted (State.drain as s) := by
  refine State.drain_induction (P := fun u => u.progress ≠ .done → s.KeepsCommitted u) ?_ ?_ as s ?_ hd
  · exact fun u a hu ih hc => (ih hu).trans (State.consume_keepsCommitted hc)
  · exact fun u _ ih hu => ⟨(ih hu).carry, (ih hu).initialCarry, (ih hu).cursor, (ih hu).fatal⟩
  · exact fun _ => ⟨rfl, rfl, rfl, rfl⟩

theorem exec_construct_keepsCommitted {s t : State} (h : exec .construct s = .next t) (hd : t.progress ≠ .done) :
    s.KeepsCommitted t := by
  cases h
  obtain ⟨hc, hic, hcur, hf⟩ := State.drain_keepsCommitted hd
  exact ⟨hc, hic, hcur, hf⟩

/-- READ, ADVANCE and RESET are done at their acceptance, whether they answer `OK` or `NOT_SEEDED`. -/
theorem exec_done_of_ne_construct {i : Instr} {s t : State} (hi : i ≠ .construct) (h : exec i s = .next t) :
    t.progress = .done := by
  have hcheck (w : Nat) (u : State) (hu : u.progress = .done) : (s.ifSeeded w u).progress = .done := by
    rcases s.ifSeeded_cases w u with ⟨_, he⟩ | ⟨_, he⟩ <;> rw [he]
    · exact hu
    · exact State.raise_notSeeded_progress s w
  cases i with
  | read => cases h; exact hcheck _ _ rfl
  | advance => cases h; exact hcheck _ _ rfl
  | reset => cases h; exact hcheck _ _ rfl
  | construct => exact absurd rfl hi

theorem step_keepsCommitted {s t : State} (h : step s = .next t) (hr : s.pins.rstN = true)
    (hd : t.progress ≠ .done) : s.KeepsCommitted t := by
  have hnext : s.KeepsCommitted s.nextEdge := ⟨rfl, rfl, rfl, rfl⟩
  rcases s.edgeEvent_cases s.pins with ⟨h0, _⟩ | ⟨_, _, _, hev⟩ | ⟨_, _, _, _, _, hev⟩ | ⟨_, _, _, _, hev⟩ |
    ⟨_, _, _, _, hev⟩
  · simp [hr] at h0
  · rw [step_of_accept hev] at h
    by_cases hi : decode s.pins.cmdOp = .construct
    · rw [hi] at h
      exact hnext.trans (exec_construct_keepsCommitted h hd)
    · exact absurd (exec_done_of_ne_construct hi h) hd
  · rw [step_of_take hev] at h
    cases h
    exact ⟨rfl, rfl, rfl, rfl⟩
  · rw [step_of_answer hev] at h
    cases h
    exact hnext.trans (State.consume_keepsCommitted hd)
  · rw [step_of_quiet hev] at h
    cases h
    exact ⟨rfl, rfl, rfl, rfl⟩

/-! ### The handshake of the last ring word -/

@[simp] theorem Storage.fill_ring_toList {k : Nat} (st : Storage k) (v : Word) :
    (st.fill v).ring.toList = st.ring.toList.set st.fillIndex.toNat v := by
  simp [Storage.fill, Storage.writeRing, Storage.writeInitialRing, Vector.toList_set]

@[simp] theorem Storage.fill_initialRing_toList {k : Nat} (st : Storage k) (v : Word) :
    (st.fill v).initialRing.toList = st.initialRing.toList.set st.fillIndex.toNat v := by
  simp [Storage.fill, Storage.writeRing, Storage.writeInitialRing, Vector.toList_set]

/-- The architectural record after the last ring word (R104, R105): its index is `CYCLE - 1`. -/
theorem State.engineState_lastRingWord {s : State} (hl : s.storage.fillIndex = lastIndex s.build.log2Cycle)
    (v : Word) :
    (s.withStorage (s.storage.fill v)).completeConstruct.engineState =
      { log2Cycle := s.build.log2Cycle
        cMax := s.build.cMax
        ring := s.engineState.ring.set (s.cycle - 1) v
        initialRing := s.engineState.initialRing.set (s.cycle - 1) v
        carry := s.storage.heldCarry
        initialCarry := s.storage.heldCarry
        cursor := s.cycle - 1
        seeded := true
        fatal := false } := by
  have hlast : (lastIndex s.build.log2Cycle).toNat = s.cycle - 1 := lastIndex_toNat _
  simp [State.engineState, hl, hlast]

/-- Settles O46. -/
theorem constructWritesTakeEffectAtItsEnd : Obligations.ConstructWritesTakeEffectAtItsEnd := by
  refine ⟨fun s t h hd => ?_, fun s t h hr hd => ?_, fun s hr hb hp hl hv he => ?_⟩
  · obtain ⟨hc, hic, hcur, hf⟩ := exec_construct_keepsCommitted h hd
    exact ⟨hc, hic, hcur, hf⟩
  · obtain ⟨hc, hic, hcur, hf⟩ := step_keepsCommitted h hr hd
    exact ⟨hc, hic, hcur, hf⟩
  · have hword : s.pins.answer = .word s.pins.entData := by simp [Pins.answer, he]
    have hstep := step_of_drawing hr hb (by simp [hp]) hv
    rw [hword, State.consume_lastRingWord (s := s.nextEdge) hp hl] at hstep
    exact ⟨_, hstep, rfl, rfl, rfl, State.engineState_lastRingWord (s := s.nextEdge) hl _⟩

end Sys2Proof.Machine
end

section
/-! PROOFS. Everything a command and a clock edge can do, said once, and what follows for the build parameters
(spec/10_state.md R44) and for `BUSY` (R42). -/

namespace Sys2Proof.Machine

open Sys2Proof

/-! ### The outcomes of a command and of an edge -/

/-- The states a command can leave, by the command and by `SEEDED` (spec/60_exceptions.md R171). -/
inductive State.Executed (s : State) : Instr → State → Prop where
  | unseeded {i : Instr} (hi : i ≠ .construct) (hs : s.seeded = false) :
      s.Executed i (s.raise .notSeeded (latencyOf s.build i))
  | read (hs : s.seeded = true) : s.Executed .read (s.respond .ok s.storage.current s.build.latency.read)
  | advance (hs : s.seeded = true) :
      s.Executed .advance ((s.withStorage s.storage.advance).respond .ok 0#32 s.build.latency.advance)
  | reset (hs : s.seeded = true) :
      s.Executed .reset ((s.withStorage s.storage.restore).respond .ok 0#32 s.build.latency.reset)
  | construct : s.Executed .construct (State.drain s.entropy s.beginConstruct)

theorem exec_executed {i : Instr} {s t : State} (h : exec i s = .next t) : s.Executed i t := by
  cases hs : s.seeded with
  | false =>
    cases i with
    | read => rw [exec_read_of_unseeded hs] at h; cases h; exact .unseeded (by decide) hs
    | advance => rw [exec_advance_of_unseeded hs] at h; cases h; exact .unseeded (by decide) hs
    | reset => rw [exec_reset_of_unseeded hs] at h; cases h; exact .unseeded (by decide) hs
    | construct => cases h; exact .construct
  | true =>
    cases i with
    | read => rw [exec_read, State.ifSeeded_of_seeded hs] at h; cases h; exact .read hs
    | advance => rw [exec_advance, State.ifSeeded_of_seeded hs] at h; cases h; exact .advance hs
    | reset => rw [exec_reset, State.ifSeeded_of_seeded hs] at h; cases h; exact .reset hs
    | construct => cases h; exact .construct

/-- The states a clock edge can leave, by the handshake at it (spec/30_encoding.md R84, R86, R88). -/
inductive State.Edge (s : State) : State → Prop where
  | powerOn (hr : s.pins.rstN = false) : s.Edge s.nextEdge.powerOnReset
  | accept {t : State} (hr : s.pins.rstN = true) (hb : s.busy = false) (hv : s.pins.cmdValid = true)
      (he : exec (decode s.pins.cmdOp) s.nextEdge = .next t) : s.Edge t
  | take (hr : s.pins.rstN = true) (hb : s.busy = true) (hp : s.progress = .done) (hw : s.wait = 0)
      (hq : s.pins.rspReady = true) : s.Edge s.nextEdge.takeResponse
  | answer (hr : s.pins.rstN = true) (hb : s.busy = true) (hp : s.progress ≠ .done)
      (hv : s.pins.entValid = true) : s.Edge (s.nextEdge.consume s.pins.answer)
  | quiet (hr : s.pins.rstN = true) (hv : s.busy = false → s.pins.cmdValid = false)
      (hq : s.busy = true → s.progress = .done → s.wait = 0 → s.pins.rspReady = false) :
      s.Edge s.nextEdge.quietEdge

theorem step_edge {s t : State} (h : step s = .next t) : s.Edge t := by
  rcases s.edgeEvent_cases s.pins with ⟨hr, hev⟩ | ⟨hr, hb, hv, hev⟩ | ⟨hr, hb, hp, hw, hq, hev⟩ |
    ⟨hr, hb, hp, hv, hev⟩ | ⟨hr, hv, hq, _, hev⟩
  · rw [step_of_powerOn hev] at h; cases h; exact .powerOn hr
  · rw [step_of_accept hev] at h; exact .accept hr hb hv h
  · rw [step_of_take hev] at h; cases h; exact .take hr hb hp hw hq
  · rw [step_of_answer hev] at h; cases h; exact .answer hr hb hp hv
  · rw [step_of_quiet hev] at h; cases h; exact .quiet hr hv hq

/-! ### The build parameters -/

theorem exec_build {i : Instr} {s t : State} (h : exec i s = .next t) : t.build = s.build := by
  cases exec_executed h with
  | unseeded | read | advance | reset => rfl
  | construct => exact State.drain_build s.entropy s.beginConstruct

theorem step_build {s t : State} (h : step s = .next t) : t.build = s.build := by
  cases step_edge h with
  | powerOn | take | quiet => rfl
  | accept _ _ _ he => exact (exec_build he).trans s.nextEdge_build
  | answer => exact s.nextEdge.consume_build _

/-- Settles O6. -/
theorem buildNeverChanges : Obligations.BuildNeverChanges :=
  ⟨fun _ _ h => step_build h, fun _ _ _ h => exec_build h⟩

/-! ### BUSY -/

theorem State.drain_busy {s : State} (hb : s.busy = true) (as : List Answer) : (State.drain as s).busy = true :=
  State.drain_induction (P := fun u => u.busy = true) (fun _ a _ h => State.consume_busy h a)
    (fun _ _ h => h) as s hb

/-- Every command is busy from its acceptance on, whatever it answers (R42). -/
theorem exec_busy {i : Instr} {s t : State} (h : exec i s = .next t) : t.busy = true := by
  cases exec_executed h with
  | unseeded | read | advance | reset => rfl
  | construct => exact State.drain_busy s.beginConstruct_busy s.entropy

theorem State.rspValid_true_iff (s : State) :
    s.rspValid true = true ↔ s.busy = true ∧ s.progress = .done ∧ s.wait = 0 := by
  simp [State.rspValid, and_assoc]

/-- Settles O29. -/
theorem busyFromAcceptanceToResponse : Obligations.BusyFromAcceptanceToResponse := by
  refine fun s t h => ⟨?_, fun _ => rfl⟩
  rw [State.rspValid_true_iff]
  cases step_edge h with
  | powerOn hr => simp [hr]
  | accept hr hb hv he => simp [exec_busy he, hr, hb, hv]
  | take hr hb hp hw hq => simp [hr, hb, hp, hw, hq]
  | answer hr hb hp => simp [State.consume_busy (s := s.nextEdge) hb, hr, hb, hp]
  | quiet hr hv hq =>
    cases hb : s.busy with
    | false => simp [hr, hb, hv hb]
    | true => simpa [hr, hb] using hq hb

end Sys2Proof.Machine
end

section
/-! PROOFS. What only CONSTRUCT and power-on reset write: the snapshot (spec/10_state.md R37), `SEEDED` and `FATAL` (R41).
The three ways a CONSTRUCT can stand after an edge are said once, as `State.ConstructOutcome`. -/

namespace Sys2Proof.Machine

open Sys2Proof

/-! ### How a CONSTRUCT stands -/

/-- A CONSTRUCT has completed (spec/40_construct_reset.md R105). -/
structure State.Constructed (t : State) : Prop where
  seeded : t.seeded = true
  fatal : t.fatal = false
  busy : t.busy = true
  progress : t.progress = .done
  rspStatus : t.rspStatus = .ok
  cursor : t.storage.cursor = lastIndex t.build.log2Cycle
  carry : t.storage.carry = t.storage.initialCarry

/-- A CONSTRUCT has met a failed answer (spec/40_construct_reset.md R106, spec/60_exceptions.md R172). -/
structure State.ConstructFailed (t : State) : Prop where
  seeded : t.seeded = false
  fatal : t.fatal = true
  busy : t.busy = true
  progress : t.progress = .done
  rspStatus : t.rspStatus = .entropyFail
  rspData : t.rspData = 0#32

/-- What a CONSTRUCT that still draws in `s` has come to in `t`. -/
inductive State.ConstructOutcome (s t : State) : Prop where
  | waiting (hp : t.progress ≠ .done) (hs : t.seeded = s.seeded) (hf : t.fatal = s.fatal)
  | completed (h : t.Constructed)
  | failed (h : t.ConstructFailed)

theorem State.completeConstruct_constructed (s : State) : s.completeConstruct.Constructed :=
  ⟨rfl, rfl, rfl, rfl, rfl, rfl, rfl⟩

theorem State.raise_entropyFail_constructFailed (s : State) (w : Nat) : (s.raise .entropyFail w).ConstructFailed :=
  ⟨rfl, rfl, rfl, rfl, rfl, rfl⟩

theorem State.consume_outcome {s : State} (hd : s.progress ≠ .done) (a : Answer) :
    s.ConstructOutcome (s.consume a) := by
  rcases s.consume_cases a with ⟨hp, _⟩ | ⟨_, _, h⟩ | ⟨_, _, _, _, h⟩ | ⟨_, _, _, _, h⟩ | ⟨_, _, _, _, h⟩ |
    ⟨_, _, _, _, h⟩
  · exact absurd hp hd
  · rw [h]; exact .failed (s.raise_entropyFail_constructFailed _)
  · rw [h]; exact .waiting hd rfl rfl
  · rw [h]; exact .waiting (by simp) rfl rfl
  · rw [h]; exact .waiting hd rfl rfl
  · rw [h]; exact .completed (State.completeConstruct_constructed _)

theorem State.ConstructOutcome.consume {s u : State} (h : s.ConstructOutcome u) (hd : u.progress ≠ .done)
    (a : Answer) : s.ConstructOutcome (u.consume a) := by
  cases h with
  | waiting _ hs hf =>
    cases State.consume_outcome hd a with
    | waiting hp hs' hf' => exact .waiting hp (hs'.trans hs) (hf'.trans hf)
    | completed h => exact .completed h
    | failed h => exact .failed h
  | completed h => exact absurd h.progress hd
  | failed h => exact absurd h.progress hd

theorem State.ConstructOutcome.withEntropy {s u : State} (h : s.ConstructOutcome u) (es : List Answer) :
    s.ConstructOutcome { u with entropy := es } := by
  cases h with
  | waiting hp hs hf => exact .waiting hp hs hf
  | completed h => exact .completed ⟨h.1, h.2, h.3, h.4, h.5, h.6, h.7⟩
  | failed h => exact .failed ⟨h.1, h.2, h.3, h.4, h.5, h.6⟩

theorem State.drain_outcome {s : State} (hd : s.progress ≠ .done) (as : List Answer) :
    s.ConstructOutcome (State.drain as s) :=
  State.drain_induction (fun _ a hp h => h.consume hp a) (fun _ es h => h.withEntropy es) as s
    (.waiting hd rfl rfl)

theorem exec_construct_outcome {s t : State} (h : exec .construct s = .next t) :
    s.beginConstruct.ConstructOutcome t := by
  cases h
  exact State.drain_outcome (by simp) s.entropy

/-! ### What every other command and edge keeps -/

/-- The two states agree on what only CONSTRUCT and power-on reset write (R37, R40, R41). -/
structure State.KeepsConstruction (s t : State) : Prop where
  initialRing : t.engineState.initialRing = s.engineState.initialRing
  initialCarry : t.storage.initialCarry = s.storage.initialCarry
  seeded : t.seeded = s.seeded
  fatal : t.fatal = s.fatal

theorem exec_keepsConstruction {i : Instr} {s t : State} (hi : i ≠ .construct) (h : exec i s = .next t) :
    s.KeepsConstruction t := by
  cases exec_executed h with
  | unseeded | read | advance | reset => exact ⟨rfl, rfl, rfl, rfl⟩
  | construct => exact absurd rfl hi

theorem decode_eq_construct_iff (op : BitVec 2) : decode op = .construct ↔ op = 0b11#2 := by
  revert op; decide

/-- The edges that can write the snapshot, `SEEDED` or `FATAL`: power-on reset, the acceptance of a CONSTRUCT and the
handshakes of its draws. Every other edge keeps them. -/
inductive State.ConstructEdge (s : State) : State → Prop where
  | powerOn (hr : s.pins.rstN = false) : s.ConstructEdge s.nextEdge.powerOnReset
  | accept {t : State} (hr : s.pins.rstN = true) (hb : s.busy = false) (hv : s.pins.cmdValid = true)
      (ho : s.pins.cmdOp = 0b11#2) (he : exec .construct s.nextEdge = .next t) : s.ConstructEdge t
  | answer (hr : s.pins.rstN = true) (hb : s.busy = true) (hp : s.progress ≠ .done)
      (hv : s.pins.entValid = true) : s.ConstructEdge (s.nextEdge.consume s.pins.answer)
  | other {t : State} (hk : s.KeepsConstruction t) : s.ConstructEdge t

theorem step_constructEdge {s t : State} (h : step s = .next t) : s.ConstructEdge t := by
  cases step_edge h with
  | powerOn hr => exact .powerOn hr
  | accept hr hb hv he =>
    by_cases hi : decode s.pins.cmdOp = .construct
    · rw [hi] at he
      exact .accept hr hb hv ((decode_eq_construct_iff _).mp hi) he
    · obtain ⟨hir, hic, hs, hf⟩ := exec_keepsConstruction hi he
      exact .other ⟨hir, hic, hs, hf⟩
  | take => exact .other ⟨rfl, rfl, rfl, rfl⟩
  | answer hr hb hp hv => exact .answer hr hb hp hv
  | quiet => exact .other ⟨rfl, rfl, rfl, rfl⟩

/-! ### The statements -/

/-- Settles O17. -/
theorem snapshotChangesOnlyInConstruct : Obligations.SnapshotChangesOnlyInConstruct := by
  refine ⟨fun i s t hi h => ?_, fun s t h hr hnot hidle => ?_⟩
  · have hk := exec_keepsConstruction hi h
    exact ⟨hk.initialRing, hk.initialCarry⟩
  · cases step_constructEdge h with
    | powerOn h0 => simp [hr] at h0
    | accept _ hb hv ho => exact absurd ⟨hb, hv, ho⟩ hnot
    | answer _ hb hp => exact absurd ⟨hb, hp⟩ hidle
    | other hk => exact ⟨hk.initialRing, hk.initialCarry⟩

/-- What O28 asks of an edge, for one that leaves a CONSTRUCT waiting or ended. -/
theorem State.ConstructOutcome.fatal_changes {s t : State} (h : s.ConstructOutcome t) :
    (s.fatal = false → t.fatal = true →
      t.rspStatus = .entropyFail ∧ t.rspData = 0#32 ∧ t.busy = true ∧ t.progress = .done ∧ t.seeded = false) ∧
    (s.fatal = true → t.fatal = false →
      t.seeded = true ∧ t.rspStatus = .ok ∧ t.busy = true ∧ t.progress = .done) := by
  cases h with
  | waiting _ _ hf =>
    exact ⟨fun hs ht => by simp [hf, hs] at ht, fun hs ht => by simp [hf, hs] at ht⟩
  | completed h =>
    exact ⟨fun _ ht => absurd ht (by simp [h.fatal]), fun _ _ => ⟨h.seeded, h.rspStatus, h.busy, h.progress⟩⟩
  | failed h =>
    exact ⟨fun _ _ => ⟨h.rspStatus, h.rspData, h.busy, h.progress, h.seeded⟩,
      fun _ ht => absurd ht (by simp [h.fatal])⟩

/-- Settles O28. -/
theorem fatalChangesOnlyByConstructOrPowerOn : Obligations.FatalChangesOnlyByConstructOrPowerOn := by
  intro s t h
  cases step_constructEdge h with
  | powerOn hr => exact ⟨fun _ ht => absurd ht (by simp), fun _ _ => .inl hr⟩
  | accept _ _ _ _ he =>
    obtain ⟨hset, hclear⟩ := (exec_construct_outcome he).fatal_changes
    exact ⟨hset, fun hs ht => .inr (hclear hs ht)⟩
  | answer _ _ hp =>
    obtain ⟨hset, hclear⟩ := (State.consume_outcome (s := s.nextEdge) hp s.pins.answer).fatal_changes
    exact ⟨hset, fun hs ht => .inr (hclear hs ht)⟩
  | other hk =>
    exact ⟨fun hs ht => by simp [hk.fatal, hs] at ht, fun hs ht => by simp [hk.fatal, hs] at ht⟩

end Sys2Proof.Machine
end

section
/-! PROOFS. The bound on the carry that an ADVANCE computes (spec/42_advance.md R147): `carry' ≤ a`. -/

namespace Sys2Proof.Machine

open Sys2Proof

theorem mwcProduct_le (q c : Word) : mwcProduct q c ≤ 18783 * (2 ^ 32 - 1) := by
  have hq := q.isLt
  have hc := c.isLt
  unfold mwcProduct Config.multiplier
  omega

theorem lo32_toNat (t : Nat) : (lo32 t).toNat = t % 2 ^ 32 := by
  simp [lo32]

theorem hi32_toNat {t : Nat} (h : t < 2 ^ 64) : (hi32 t).toNat = t / 2 ^ 32 := by
  rw [hi32, BitVec.toNat_ofNat, Nat.shiftRight_eq_div_pow, Nat.mod_eq_of_lt (by omega)]

/-- The test of step 4 sees exactly the sums that wrap (R144). -/
theorem mwcWraps_iff (t : Nat) : mwcWraps t = true ↔ 2 ^ 32 ≤ (lo32 t).toNat + (hi32 t).toNat := by
  have hl := (lo32 t).isLt
  have hh := (hi32 t).isLt
  rw [mwcWraps, decide_eq_true_iff, BitVec.lt_def, mwcSum, BitVec.toNat_add]
  omega

theorem mwcStep_of_wraps {q c : Word} (h : mwcWraps (mwcProduct q c) = true) :
    mwcStep q c = (mwcSum (mwcProduct q c) + 1#32, hi32 (mwcProduct q c) + 1#32) := by
  simp [mwcStep, h]

theorem mwcStep_of_not_wraps {q c : Word} (h : ¬ mwcWraps (mwcProduct q c) = true) :
    mwcStep q c = (mwcSum (mwcProduct q c), hi32 (mwcProduct q c)) := by
  simp [mwcStep, h]

/-- R147 item 5. Where the high half is already `a`, the low half is too small for the correction. -/
theorem mwcStep_carry_le (q c : Word) : (mwcStep q c).2.toNat ≤ Config.multiplier := by
  have hle := mwcProduct_le q c
  have hhi := hi32_toNat (t := mwcProduct q c) (by omega)
  have hlo := lo32_toNat (mwcProduct q c)
  unfold Config.multiplier
  by_cases hw : mwcWraps (mwcProduct q c) = true
  · have hsum := (mwcWraps_iff _).mp hw
    rw [mwcStep_of_wraps hw, BitVec.toNat_add, BitVec.toNat_ofNat]
    omega
  · rw [mwcStep_of_not_wraps hw, hhi]
    omega

end Sys2Proof.Machine
end

section
/-! PROOFS. The invariant `State.Inv` (spec/10_state.md R49 and what goes with it): the power-on state meets it, every command
and every edge keeps it, and what follows for `SEEDED` (R40), `status` (R43, R64) and the carry (R38). -/

namespace Sys2Proof.Machine

open Sys2Proof

/-! ### Rings that agree on the words filled so far -/

/-- The two rings hold the same words at the indices below `n`. -/
def RingsAgreeBelow {k : Nat} (n : Nat) (xs ys : Vector Word (2 ^ k)) : Prop :=
  ∀ j : Fin (2 ^ k), j.val < n → xs[j.val] = ys[j.val]

theorem RingsAgreeBelow.zero {k : Nat} (xs ys : Vector Word (2 ^ k)) : RingsAgreeBelow 0 xs ys :=
  fun _ hj => absurd hj (Nat.not_lt_zero _)

/-- The same word written to both at the first index where they may differ. -/
theorem RingsAgreeBelow.set {k : Nat} {i : BitVec k} {xs ys : Vector Word (2 ^ k)}
    (h : RingsAgreeBelow i.toNat xs ys) (v : Word) :
    RingsAgreeBelow (i.toNat + 1) (xs.set i.toNat v i.isLt) (ys.set i.toNat v i.isLt) := by
  intro j hj
  rw [Vector.getElem_set, Vector.getElem_set]
  split
  case isTrue => rfl
  case isFalse hne => exact h j (by omega)

theorem RingsAgreeBelow.eq {k n : Nat} {xs ys : Vector Word (2 ^ k)} (h : RingsAgreeBelow n xs ys)
    (hn : 2 ^ k ≤ n) : xs = ys :=
  Vector.ext fun j hj => h ⟨j, hj⟩ (Nat.lt_of_lt_of_le hj hn)

/-- One more ring word (R104): the two rings of a storage agree on it as well. -/
theorem Storage.fill_ringsAgree {k : Nat} {st : Storage k}
    (h : RingsAgreeBelow st.fillIndex.toNat st.ring st.initialRing) (v : Word) :
    RingsAgreeBelow (st.fillIndex.toNat + 1) (st.fill v).ring (st.fill v).initialRing :=
  h.set v

/-- The count of the filled words after the last one. -/
theorem toNat_add_one_of_last {k : Nat} {i : BitVec k} (h : i = lastIndex k) : 2 ^ k ≤ i.toNat + 1 := by
  rw [h, lastIndex_toNat]
  omega

/-! ### States that meet the invariant -/

/-- Where nothing draws, the clauses on a CONSTRUCT in progress say nothing. -/
theorem State.Inv.of_done {s : State} (hp : s.progress = .done) (hf : s.seeded = true → s.fatal = false)
    (hi : s.seeded = true → s.storage.initialCarry.toNat < s.build.cMax.toNat)
    (hc : s.seeded = true →
      s.storage.carry.toNat < s.build.cMax.toNat ∨ s.storage.carry.toNat ≤ Config.multiplier)
    (hz : s.rspStatus ≠ .ok → s.rspData = 0#32) : s.Inv where
  seeded_not_fatal := hf
  seeded_snapshot_bound := hi
  seeded_carry_bound := hc
  idle_done _ := hp
  drawing_unseeded h := absurd hp h
  drawing_waits h := absurd hp h
  filling_held h := by simp [hp] at h
  filling_ring h := by simp [hp] at h
  error_data_zero := hz

/-- An unseeded engine that draws nothing: after power-on reset (R48) and after a failed CONSTRUCT (R172). -/
theorem State.Inv.of_unseeded_done {s : State} (hs : s.seeded = false) (hp : s.progress = .done)
    (hz : s.rspStatus ≠ .ok → s.rspData = 0#32) : s.Inv :=
  .of_done hp (by simp [hs]) (by simp [hs]) (by simp [hs]) hz

theorem State.powerOn_inv (b : Build) (n : Nat) (es : List Answer) (ps : List Pins) :
    (State.powerOn b n es ps).Inv :=
  .of_unseeded_done rfl rfl fun _ => rfl

/-- Settles O43. -/
theorem powerOnMeetsInvariant : Obligations.PowerOnMeetsInvariant :=
  ⟨fun b n es ps => ⟨State.powerOn_inv b n es ps, rfl, rfl, rfl, rfl⟩, State.powerOn_inv _ _ _ _, rfl, rfl⟩

theorem State.Inv.busy_of_drawing {s : State} (h : s.Inv) (hp : s.progress ≠ .done) : s.busy = true := by
  cases hb : s.busy with
  | false => exact absurd (h.idle_done hb) hp
  | true => rfl

/-- The bits of three Booleans put side by side. -/
theorem ofBool_append_getLsbD (f s b : Bool) :
    (BitVec.ofBool f ++ BitVec.ofBool s ++ BitVec.ofBool b).getLsbD 0 = b ∧
    (BitVec.ofBool f ++ BitVec.ofBool s ++ BitVec.ofBool b).getLsbD 1 = s ∧
    (BitVec.ofBool f ++ BitVec.ofBool s ++ BitVec.ofBool b).getLsbD 2 = f := by
  revert f s b; decide

/-- The bits of `status` (R43). -/
theorem State.status_getLsbD (s : State) :
    s.status.getLsbD 0 = s.busy ∧ s.status.getLsbD 1 = s.seeded ∧ s.status.getLsbD 2 = s.fatal :=
  ofBool_append_getLsbD s.fatal s.seeded s.busy

/-- Settles O31. -/
theorem statusBits : Obligations.StatusBits := by
  refine ⟨State.status_getLsbD, fun s h hp => ?_⟩
  obtain ⟨hb, hs, _⟩ := s.status_getLsbD
  exact ⟨hb.trans (h.busy_of_drawing hp), hs.trans (h.drawing_unseeded hp)⟩

/-! ### The invariant along the draws

While a CONSTRUCT takes the answers at hand, `drawing_waits` does not hold yet; so the draws keep the invariant of the
engine without its answers, which no draw reads. -/

theorem State.Inv.withData {s : State} (h : s.Inv) {es : List Answer} (he : s.progress ≠ .done → es = [])
    (ps : List Pins) : (s.withData es ps).Inv :=
  ⟨h.1, h.2, h.3, h.4, h.5, he, h.7, h.8, h.9⟩

theorem State.Inv.nextEdge {s : State} (h : s.Inv) : s.nextEdge.Inv :=
  h.withData h.drawing_waits s.inputs.tail

theorem State.Inv.consume {s : State} (h : s.Inv) (a : Answer) : (s.consume a).Inv := by
  rcases s.consume_cases a with ⟨_, hc⟩ | ⟨_, _, hc⟩ | ⟨_, _, _, _, hc⟩ | ⟨v, _, hp, hv, hc⟩ | ⟨v, _, hp, hl, hc⟩ |
    ⟨v, _, hp, hl, hc⟩ <;> rw [hc]
  · exact h
  · exact .of_unseeded_done rfl rfl fun _ => rfl
  · exact h
  · have hd : s.progress ≠ .done := by simp [hp]
    have hs := h.drawing_unseeded hd
    exact {
      seeded_not_fatal := h.seeded_not_fatal
      seeded_snapshot_bound := h.seeded_snapshot_bound
      seeded_carry_bound := h.seeded_carry_bound
      idle_done := fun hb => absurd (h.idle_done hb) hd
      drawing_unseeded := fun _ => hs
      drawing_waits := fun _ => h.drawing_waits hd
      filling_held := fun _ => hv
      filling_ring := fun _ => RingsAgreeBelow.zero _ _
      error_data_zero := h.error_data_zero }
  · have hring : RingsAgreeBelow (s.storage.fillIndex + 1#_).toNat (s.storage.fill v).ring
        (s.storage.fill v).initialRing := by
      rw [succ_toNat_of_ne_last hl]
      exact Storage.fill_ringsAgree (h.filling_ring hp) v
    exact { h with filling_ring := fun _ => hring }
  · have hheld := h.filling_held hp
    exact .of_done rfl (fun _ => rfl) (fun _ => hheld) (fun _ => .inl hheld) fun _ => rfl

/-- The answer that sets `SEEDED` is the last ring word; it leaves the two rings equal (R104, R105). -/
theorem State.Inv.consume_seeded {s : State} (h : s.Inv) (hd : s.progress ≠ .done) {a : Answer}
    (hs : (s.consume a).seeded = true) :
    s.progress = .fillRing ∧ a ≠ .fail ∧ (s.consume a).storage.ring = (s.consume a).storage.initialRing := by
  have hu := h.drawing_unseeded hd
  rcases s.consume_cases a with ⟨_, hc⟩ | ⟨_, _, hc⟩ | ⟨_, _, _, _, hc⟩ | ⟨_, _, _, _, hc⟩ | ⟨_, _, _, _, hc⟩ |
    ⟨v, ha, hp, hl, hc⟩ <;> rw [hc] at hs ⊢
  · simp [hu] at hs
  · simp at hs
  · simp [hu] at hs
  · simp [hu] at hs
  · simp [hu] at hs
  · refine ⟨hp, by simp [ha], ?_⟩
    exact (Storage.fill_ringsAgree (h.filling_ring hp) v).eq (toNat_add_one_of_last hl)

/-- What the draws of a CONSTRUCT keep: the invariant but for `drawing_waits`, and the two rings equal where the command
has completed. -/
structure State.DrawInv (s : State) : Prop where
  inv : (s.withData [] s.inputs).Inv
  rings : s.seeded = true → s.storage.ring = s.storage.initialRing

theorem State.DrawInv.consume {s : State} (h : s.DrawInv) (hd : s.progress ≠ .done) (a : Answer) :
    (s.consume a).DrawInv := by
  have hinv := h.inv.consume a
  have hrings := h.inv.consume_seeded hd (a := a)
  rw [State.consume_withData] at hinv hrings
  refine ⟨?_, fun hs => ?_⟩
  · rw [State.consume_inputs]
    exact hinv
  · obtain ⟨_, _, hr⟩ := hrings hs
    exact hr

theorem State.DrawInv.drain {s : State} (h : s.DrawInv) (as : List Answer) : (State.drain as s).DrawInv :=
  State.drain_induction (fun _ a hd hu => hu.consume hd a) (fun _ _ hu => ⟨hu.inv, hu.rings⟩) as s h

/-- At its acceptance a CONSTRUCT clears `SEEDED` and fills nothing yet (R102). -/
theorem State.Inv.beginConstruct {s : State} (h : s.Inv) : s.beginConstruct.DrawInv where
  inv :=
    { seeded_not_fatal := nofun
      seeded_snapshot_bound := nofun
      seeded_carry_bound := nofun
      idle_done := nofun
      drawing_unseeded := fun _ => rfl
      drawing_waits := fun _ => rfl
      filling_held := nofun
      filling_ring := nofun
      error_data_zero := h.error_data_zero }
  rings := nofun

/-! ### Every command and every edge keeps the invariant -/

theorem exec_keeps_inv {i : Instr} {s t : State} (hi : s.Inv) (h : exec i s = .next t) : t.Inv := by
  cases exec_executed h with
  | unseeded _ hs => exact .of_unseeded_done hs rfl fun _ => rfl
  | read =>
    exact .of_done rfl hi.seeded_not_fatal hi.seeded_snapshot_bound hi.seeded_carry_bound fun h => absurd rfl h
  | advance =>
    exact .of_done rfl hi.seeded_not_fatal hi.seeded_snapshot_bound (fun _ => .inr (mwcStep_carry_le _ _))
      fun _ => rfl
  | reset =>
    exact .of_done rfl hi.seeded_not_fatal hi.seeded_snapshot_bound
      (fun hs => .inl (hi.seeded_snapshot_bound hs)) fun _ => rfl
  | construct =>
    have hdraw := hi.beginConstruct.drain s.entropy
    exact hdraw.inv.withData (State.drain_waits _ _) (State.drain s.entropy s.beginConstruct).inputs

/-- Settles O44. -/
theorem stepKeepsInvariant : Obligations.StepKeepsInvariant := by
  intro s t hi h
  have hn := hi.nextEdge
  cases step_edge h with
  | powerOn => exact State.powerOn_inv _ _ _ _
  | accept _ _ _ he => exact exec_keeps_inv hn he
  | take _ _ hp =>
    exact .of_done hp hn.seeded_not_fatal hn.seeded_snapshot_bound hn.seeded_carry_bound hn.error_data_zero
  | answer => exact hn.consume _
  | quiet => exact ⟨hn.1, hn.2, hn.3, hn.4, hn.5, hn.6, hn.7, hn.8, hn.9⟩

/-! ### The end of a successful CONSTRUCT -/

theorem exec_construct_rings {s t : State} (hi : s.Inv) (h : exec .construct s = .next t) (hs : t.seeded = true) :
    t.storage.ring = t.storage.initialRing := by
  cases h
  exact (hi.beginConstruct.drain s.entropy).rings hs

/-- Only a completed CONSTRUCT sets `SEEDED` (R40). -/
theorem State.ConstructOutcome.constructed_of_seeded {s t : State} (h : s.ConstructOutcome t)
    (hs : s.seeded = false) (ht : t.seeded = true) : t.Constructed := by
  cases h with
  | waiting _ hk _ => simp [hk, hs] at ht
  | completed h => exact h
  | failed h => simp [h.seeded] at ht

theorem State.cursor_of_lastIndex {t : State} (h : t.storage.cursor = lastIndex t.build.log2Cycle) :
    t.engineState.cursor = t.cycle - 1 :=
  (congrArg BitVec.toNat h).trans (lastIndex_toNat _)

theorem Pins.entErr_of_answer_ne_fail {p : Pins} (h : p.answer ≠ .fail) : p.entErr = false := by
  simpa [Pins.answer] using h

/-- An edge that sets `SEEDED` ends a successful CONSTRUCT. -/
theorem step_sets_seeded {s t : State} (hi : s.Inv) (h : step s = .next t) (hs : s.seeded = false)
    (ht : t.seeded = true) :
    s.pins.rstN = true ∧ t.Constructed ∧ t.storage.ring = t.storage.initialRing ∧
      ((s.busy = false ∧ s.pins.cmdValid = true ∧ s.pins.cmdOp = 0b11#2) ∨
        (s.busy = true ∧ s.progress = .fillRing ∧ s.pins.entValid = true ∧ s.pins.entErr = false)) := by
  cases step_constructEdge h with
  | powerOn => simp at ht
  | accept hr hb hv ho he =>
    exact ⟨hr, (exec_construct_outcome he).constructed_of_seeded rfl ht, exec_construct_rings hi.nextEdge he ht,
      .inl ⟨hb, hv, ho⟩⟩
  | answer hr hb hd hv =>
    obtain ⟨hp, ha, hrings⟩ := hi.nextEdge.consume_seeded hd ht
    exact ⟨hr, (State.consume_outcome (s := s.nextEdge) hd _).constructed_of_seeded hs ht, hrings,
      .inr ⟨hb, hp, hv, Pins.entErr_of_answer_ne_fail ha⟩⟩
  | other hk => simp [hk.seeded, hs] at ht

theorem step_clears_seeded {s t : State} (hi : s.Inv) (h : step s = .next t) (hs : s.seeded = true)
    (ht : t.seeded = false) :
    s.pins.rstN = false ∨ (s.busy = false ∧ s.pins.cmdValid = true ∧ s.pins.cmdOp = 0b11#2) := by
  cases step_constructEdge h with
  | powerOn hr => exact .inl hr
  | accept _ hb hv ho => exact .inr ⟨hb, hv, ho⟩
  | answer _ _ hd => simp [hi.drawing_unseeded hd] at hs
  | other hk => simp [hk.seeded, hs] at ht

/-- Settles O27. -/
theorem seededChangesOnlyByConstruct : Obligations.SeededChangesOnlyByConstruct := by
  refine fun s t hi h => ⟨fun hs ht => ?_, step_clears_seeded hi h⟩
  obtain ⟨hr, hc, hrings, hwhere⟩ := step_sets_seeded hi h hs ht
  exact ⟨hr, hc.busy, hc.progress, hc.rspStatus, hc.fatal, State.cursor_of_lastIndex hc.cursor, hrings, hwhere⟩

theorem exec_construct_constructed {s t : State} (h : exec .construct s = .next t) (hd : t.progress = .done)
    (hok : t.rspStatus = .ok) : t.Constructed := by
  cases exec_construct_outcome h with
  | waiting hp => exact absurd hd hp
  | completed h => exact h
  | failed h => simp [h.rspStatus] at hok

/-- Settles O32. -/
theorem carryBoundedAfterConstructOrReset : Obligations.CarryBoundedAfterConstructOrReset := by
  rintro i s t (rfl | rfl) hi h hd hok
  · have hc := exec_construct_constructed h hd hok
    refine ⟨State.cursor_of_lastIndex hc.cursor, ?_⟩
    rw [hc.carry]
    exact (exec_keeps_inv hi h).seeded_snapshot_bound hc.seeded
  · cases exec_executed h with
    | unseeded => simp at hok
    | reset hs => exact ⟨State.cursor_of_lastIndex rfl, hi.seeded_snapshot_bound hs⟩

end Sys2Proof.Machine
end

section
/-! PROOFS. Unspecified storage is never observed (spec/10_state.md R48, spec/60_exceptions.md R172). The relation: two engines
equal but for their storages, where the storages are equal too while `SEEDED`, and agree on what a CONSTRUCT has written of
them so far while it fills the rings. The completed CONSTRUCT has written every word, so the engines are equal there. -/

namespace Sys2Proof.Machine

open Sys2Proof

/-! ### Storages that agree on what a CONSTRUCT in its ring phase has written -/

structure Storage.FilledAlike {k : Nat} (st st' : Storage k) : Prop where
  fillIndex : st'.fillIndex = st.fillIndex
  heldCarry : st'.heldCarry = st.heldCarry
  ring : RingsAgreeBelow st.fillIndex.toNat st.ring st'.ring
  initialRing : RingsAgreeBelow st.fillIndex.toNat st.initialRing st'.initialRing

theorem Storage.FilledAlike.refl {k : Nat} (st : Storage k) : st.FilledAlike st :=
  ⟨rfl, rfl, fun _ _ => rfl, fun _ _ => rfl⟩

/-- At the accepted candidate nothing is filled yet (R103, R104). -/
theorem Storage.holdCarry_filledAlike {k : Nat} (st st' : Storage k) (v : Word) :
    (st.holdCarry v).FilledAlike (st'.holdCarry v) := by
  refine ⟨rfl, rfl, ?_, ?_⟩ <;> rw [Storage.holdCarry_fillIndex, BitVec.toNat_zero] <;> exact .zero _ _

/-- The rings after one more word (R104). -/
theorem Storage.FilledAlike.fill_rings {k : Nat} {st st' : Storage k} (h : st.FilledAlike st') (v : Word) :
    RingsAgreeBelow (st.fillIndex.toNat + 1) (st.fill v).ring (st'.fill v).ring ∧
    RingsAgreeBelow (st.fillIndex.toNat + 1) (st.fill v).initialRing (st'.fill v).initialRing := by
  simp only [Storage.fill, Storage.writeRing, Storage.writeInitialRing, h.fillIndex]
  exact ⟨h.ring.set v, h.initialRing.set v⟩

theorem Storage.FilledAlike.fill {k : Nat} {st st' : Storage k} (h : st.FilledAlike st')
    (hl : st.fillIndex ≠ lastIndex k) (v : Word) : (st.fill v).FilledAlike (st'.fill v) := by
  obtain ⟨hring, hinit⟩ := h.fill_rings v
  rw [← succ_toNat_of_ne_last hl] at hring hinit
  exact ⟨congrArg (· + 1#k) h.fillIndex, h.heldCarry, hring, hinit⟩

/-- The last ring word and the writes at completion leave nothing of what the storages differed in. -/
theorem Storage.FilledAlike.commit_fill_eq {k : Nat} {st st' : Storage k} (h : st.FilledAlike st')
    (hl : st.fillIndex = lastIndex k) (v : Word) : (st'.fill v).commitConstruct = (st.fill v).commitConstruct := by
  obtain ⟨hring, hinit⟩ := h.fill_rings v
  have hfull := toNat_add_one_of_last hl
  rw [Storage.mk.injEq]
  exact ⟨(hring.eq hfull).symm, (hinit.eq hfull).symm, h.heldCarry, h.heldCarry, rfl,
    congrArg (· + 1#k) h.fillIndex, h.heldCarry⟩

/-! ### Engines that cannot be told apart -/

/-- `t` is `s` with a storage that differs at most in what can no longer be observed. -/
def State.LooksLike (s t : State) : Prop :=
  ∃ st : Storage s.build.log2Cycle, t = s.withStorage st ∧
    (s.seeded = true → st = s.storage) ∧ (s.progress = .fillRing → s.storage.FilledAlike st)

theorem State.LooksLike.refl (s : State) : s.LooksLike s :=
  ⟨s.storage, rfl, fun _ => rfl, fun _ => .refl _⟩

theorem State.LooksLike.outputs {s t : State} (h : s.LooksLike t) (rstN : Bool) :
    s.outputs rstN = t.outputs rstN := by
  obtain ⟨st, rfl, _⟩ := h
  rfl

theorem State.LooksLike.progress {s t : State} (h : s.LooksLike t) : t.progress = s.progress := by
  obtain ⟨st, rfl, _⟩ := h
  rfl

/-- A seeded engine looks like itself only. -/
theorem State.LooksLike.eq_of_seeded {s t : State} (h : s.LooksLike t) (hs : s.seeded = true) : t = s := by
  obtain ⟨st, rfl, hst, _⟩ := h
  rw [hst hs]
  rfl

/-- Unseeded engines with any two storages, no ring being filled. -/
theorem State.LooksLike.of_unseeded {s : State} (hs : s.seeded = false) (hp : s.progress ≠ .fillRing)
    (st : Storage s.build.log2Cycle) : s.LooksLike (s.withStorage st) :=
  ⟨st, rfl, fun h => by simp [hs] at h, fun h => absurd h hp⟩

theorem State.LooksLike.withEntropy {s t : State} (h : s.LooksLike t) (es : List Answer) :
    State.LooksLike { s with entropy := es } { t with entropy := es } := by
  obtain ⟨st, rfl, hs, hf⟩ := h
  exact ⟨st, rfl, hs, hf⟩

theorem State.LooksLike.consume {s t : State} (h : s.LooksLike t) (a : Answer) :
    (s.consume a).LooksLike (t.consume a) := by
  have hsame := h
  obtain ⟨st, rfl, hst, hfill⟩ := h
  rcases s.consume_cases a with ⟨hp, hc⟩ | ⟨hp, rfl, hc⟩ | ⟨v, rfl, hp, hv, hc⟩ | ⟨v, rfl, hp, hv, hc⟩ |
    ⟨v, rfl, hp, hl, hc⟩ | ⟨v, rfl, hp, hl, hc⟩ <;> rw [hc]
  · rw [State.consume_done (s := s.withStorage st) hp]
    exact hsame
  · rw [State.consume_fail (s := s.withStorage st) hp]
    exact .refl _
  · rw [State.consume_rejected (s := s.withStorage st) hp hv]
    exact hsame
  · rw [State.consume_accepted (s := s.withStorage st) hp hv]
    refine ⟨st.holdCarry v, rfl, fun hs => ?_, fun _ => Storage.holdCarry_filledAlike _ _ v⟩
    rw [hst hs]
  · have hl' : st.fillIndex ≠ lastIndex s.build.log2Cycle := (hfill hp).fillIndex ▸ hl
    rw [State.consume_ringWord (s := s.withStorage st) hp hl']
    refine ⟨st.fill v, rfl, fun hs => ?_, fun _ => (hfill hp).fill hl v⟩
    rw [hst hs]
    rfl
  · have hl' : st.fillIndex = lastIndex s.build.log2Cycle := (hfill hp).fillIndex ▸ hl
    rw [State.consume_lastRingWord (s := s.withStorage st) hp hl']
    exact ⟨_, rfl, fun _ => (hfill hp).commit_fill_eq hl v, nofun⟩

theorem State.LooksLike.drain {s t : State} (h : s.LooksLike t) (as : List Answer) :
    (State.drain as s).LooksLike (State.drain as t) := by
  induction as generalizing s t with
  | nil => exact h.withEntropy []
  | cons a rest ih =>
    by_cases hp : s.progress = .done
    · rw [State.drain_done hp, State.drain_done (h.progress.trans hp)]
      exact h.withEntropy _
    · rw [State.drain_cons hp, State.drain_cons (h.progress ▸ hp)]
      exact ih (h.consume a)

/-! ### Commands, edges, runs -/

/-- Two commands or edges whose next states cannot be told apart. -/
def NextAlike (o o' : Host.Outcome State Fault Refusal) : Prop :=
  ∃ t u : State, o = .next t ∧ o' = .next u ∧ t.LooksLike u

theorem exec_next (i : Instr) (s : State) : ∃ t : State, exec i s = .next t := by
  cases i <;> exact ⟨_, rfl⟩

theorem exec_nextAlike {s t : State} (h : s.LooksLike t) (i : Instr) : NextAlike (exec i s) (exec i t) := by
  cases hs : s.seeded with
  | true =>
    obtain ⟨u, hu⟩ := exec_next i s
    rw [h.eq_of_seeded hs]
    exact ⟨u, u, hu, hu, .refl u⟩
  | false =>
    obtain ⟨st, rfl, _⟩ := h
    have hs' : (s.withStorage st).seeded = false := hs
    have hraise (w : Nat) : (s.raise .notSeeded w).LooksLike ((s.withStorage st).raise .notSeeded w) :=
      State.LooksLike.of_unseeded (s := s.raise .notSeeded w) hs nofun st
    cases i with
    | read => exact ⟨_, _, exec_read_of_unseeded hs, exec_read_of_unseeded hs', hraise _⟩
    | advance => exact ⟨_, _, exec_advance_of_unseeded hs, exec_advance_of_unseeded hs', hraise _⟩
    | reset => exact ⟨_, _, exec_reset_of_unseeded hs, exec_reset_of_unseeded hs', hraise _⟩
    | construct =>
      have hbegin := State.LooksLike.of_unseeded s.beginConstruct_seeded nofun st
      exact ⟨_, _, exec_construct s, exec_construct _, hbegin.drain s.entropy⟩

theorem State.LooksLike.nextEdge {s t : State} (h : s.LooksLike t) : s.nextEdge.LooksLike t.nextEdge := by
  obtain ⟨st, rfl, hs, hf⟩ := h
  exact ⟨st, rfl, hs, hf⟩

/-- The handshakes read no storage (R84, R86, R88). -/
theorem State.LooksLike.edgeEvent {s t : State} (h : s.LooksLike t) :
    t.edgeEvent t.pins = s.edgeEvent s.pins := by
  obtain ⟨st, rfl, _⟩ := h
  rfl

/-- Power-on reset draws new storage, whatever stood there (R48, R200). -/
theorem State.LooksLike.powerOnReset {s t : State} (h : s.LooksLike t) :
    s.powerOnReset.LooksLike t.powerOnReset := by
  obtain ⟨st, rfl, _⟩ := h
  exact .refl _

theorem State.LooksLike.takeResponse {s t : State} (h : s.LooksLike t) :
    s.takeResponse.LooksLike t.takeResponse := by
  obtain ⟨st, rfl, hs, hf⟩ := h
  exact ⟨st, rfl, hs, hf⟩

theorem State.LooksLike.quietEdge {s t : State} (h : s.LooksLike t) : s.quietEdge.LooksLike t.quietEdge := by
  obtain ⟨st, rfl, hs, hf⟩ := h
  exact ⟨st, rfl, hs, hf⟩

theorem step_nextAlike {s t : State} (h : s.LooksLike t) : NextAlike (step s) (step t) := by
  have hn := h.nextEdge
  cases he : s.edgeEvent s.pins with
  | powerOn =>
    exact ⟨_, _, step_of_powerOn he, step_of_powerOn (h.edgeEvent.trans he), hn.powerOnReset⟩
  | accept op =>
    rw [step_of_accept he, step_of_accept (h.edgeEvent.trans he)]
    exact exec_nextAlike hn (decode op)
  | take => exact ⟨_, _, step_of_take he, step_of_take (h.edgeEvent.trans he), hn.takeResponse⟩
  | answer a => exact ⟨_, _, step_of_answer he, step_of_answer (h.edgeEvent.trans he), hn.consume a⟩
  | quiet => exact ⟨_, _, step_of_quiet he, step_of_quiet (h.edgeEvent.trans he), hn.quietEdge⟩

theorem runEdges_nextAlike (n : Nat) {s t : State} (h : s.LooksLike t) :
    NextAlike (runEdges n s) (runEdges n t) := by
  induction n generalizing s t with
  | zero => exact ⟨s, t, rfl, rfl, h⟩
  | succ n ih =>
    obtain ⟨s', t', hs, ht, h'⟩ := step_nextAlike h
    rw [runEdges_succ hs, runEdges_succ ht]
    exact ih h'

/-- Settles O45, by the relation `State.LooksLike` along the run. -/
theorem unspecifiedStorageNeverObserved : Obligations.UnspecifiedStorageNeverObserved := by
  intro s st hs hp n
  obtain ⟨t, u, ht, hu, h⟩ := runEdges_nextAlike n (State.LooksLike.of_unseeded hs hp st)
  exact ⟨t, u, ht, hu, h.outputs⟩

end Sys2Proof.Machine
end

section
/-! PROOFS. The decoder and the encoder (spec/30_encoding.md R81, R91, R92): command by command, for table words, and for
whole programs kept in bytes (log 13). -/

namespace Sys2Proof

/-! ### One command -/

@[simp] theorem decode_encode (i : Instr) : decode (encode i) = i := by
  cases i with
  | read => exact Laws.EncodingAgrees.read.2.1
  | advance => exact Laws.EncodingAgrees.advance.2.1
  | reset => exact Laws.EncodingAgrees.reset.2.1
  | construct => exact Laws.EncodingAgrees.construct.2.1

/-- Every value of `cmd_op` is the encoding of its command (R90, R91). -/
@[simp] theorem encode_decode (op : BitVec 2) : encode (decode op) = op := by
  revert op; decide

/-- Settles O1. -/
theorem decoderGivesTheFourCommands : Obligations.DecoderGivesTheFourCommands := by
  refine ⟨rfl, by decide, by decide, by decide, ?_⟩
  decide

/-! ### One byte -/

theorem decodeBytes_of_lt {b : BitVec 8} (h : b.toNat < 4) (rest : List (BitVec 8)) :
    decodeBytes (b :: rest) = .ok (decode (b.setWidth 2), rest) :=
  if_pos h

/-- A byte with a bit above `cmd_op[1:0]` is no command (R83). -/
theorem decodeBytes_of_le {b : BitVec 8} (h : 4 ≤ b.toNat) (rest : List (BitVec 8)) :
    decodeBytes (b :: rest) = .error .bitsOutsideCommand :=
  if_neg (Nat.not_lt.mpr h)

theorem encodeByte_toNat_lt (i : Instr) : (encodeByte i).toNat < 4 := by
  have hop : (encode i).toNat < 4 := (encode i).isLt
  rw [encodeByte, BitVec.toNat_setWidth]
  omega

/-- The two low bits of a command's byte are its `cmd_op`. -/
theorem encodeByte_setWidth (i : Instr) : (encodeByte i).setWidth 2 = encode i :=
  BitVec.setWidth_setWidth_of_le _ (by decide)

theorem decodeBytes_encodeByte (i : Instr) (rest : List (BitVec 8)) :
    decodeBytes (encodeByte i :: rest) = .ok (i, rest) := by
  rw [decodeBytes_of_lt (encodeByte_toNat_lt i), encodeByte_setWidth, decode_encode]

/-- A byte below 4 is the byte of the command it decodes to. -/
theorem encodeByte_decode {b : BitVec 8} (h : b.toNat < 4) : encodeByte (decode (b.setWidth 2)) = b := by
  rw [encodeByte, encode_decode]
  bv_omega

/-- What a decoded command says of the bytes. -/
theorem eq_encodeByte_of_decodeBytes {b : BitVec 8} {bs rest : List (BitVec 8)} {i : Instr}
    (h : decodeBytes (b :: bs) = .ok (i, rest)) : b = encodeByte i ∧ rest = bs := by
  by_cases hb : b.toNat < 4
  · rw [decodeBytes_of_lt hb] at h
    cases h
    exact ⟨(encodeByte_decode hb).symm, rfl⟩
  · rw [decodeBytes_of_le (Nat.not_lt.mp hb)] at h
    cases h

/-! ### Table words -/

/-- A word from 4 up that fits a byte has a bit outside the command; a wider word has a byte too many. -/
theorem decodeTableWord_of_le (nbits : Nat) {w : Nat} (h : 4 ≤ w) : decodeTableWord nbits w = none := by
  by_cases hw : w < 256
  · have hb : 4 ≤ (BitVec.ofNat 8 w).toNat := by
      rw [BitVec.toNat_ofNat]
      omega
    simp only [decodeTableWord, tableBytes, if_pos hw, decodeBytes_of_le hb]
  · simp only [decodeTableWord, tableBytes, if_neg hw, decodeBytes]
    by_cases hb : (BitVec.ofNat 8 w).toNat < 4
    · simp only [if_pos hb]
    · simp only [if_neg hb]

/-- Settles O2. -/
theorem tableWordsDecode : Obligations.TableWordsDecode :=
  ⟨Laws.EncodingAgrees.read.2.2, Laws.EncodingAgrees.advance.2.2, Laws.EncodingAgrees.reset.2.2,
    Laws.EncodingAgrees.construct.2.2, fun nbits _ h => decodeTableWord_of_le nbits h⟩

/-! ### Programs -/

theorem decodeProgramBytes_encodeProgramBytes (p : List Instr) :
    decodeProgramBytes (encodeProgramBytes p) = .ok p := by
  induction p with
  | nil => rfl
  | cons i p ih =>
    have hcons : encodeProgramBytes (i :: p) = encodeByte i :: encodeProgramBytes p := rfl
    rw [hcons, decodeProgramBytes, decodeBytes_encodeByte, ih]

/-- The bytes of a program decode one command a byte. -/
theorem decodeProgramBytes_cons {b : BitVec 8} {bs : List (BitVec 8)} {p : List Instr}
    (h : decodeProgramBytes (b :: bs) = .ok p) :
    ∃ (i : Instr) (q : List Instr), p = i :: q ∧ b = encodeByte i ∧ decodeProgramBytes bs = .ok q := by
  unfold decodeProgramBytes at h
  split at h
  next i _ q hi hq =>
    cases h
    exact ⟨i, q, rfl, (eq_encodeByte_of_decodeBytes hi).1, hq⟩
  · cases h
  · cases h

theorem encodeProgramBytes_of_decode {bs : List (BitVec 8)} {p : List Instr}
    (h : decodeProgramBytes bs = .ok p) : encodeProgramBytes p = bs := by
  induction bs generalizing p with
  | nil => cases h; rfl
  | cons b bs ih =>
    obtain ⟨i, q, rfl, rfl, hq⟩ := decodeProgramBytes_cons h
    exact congrArg (encodeByte i :: ·) (ih hq)

theorem decodeProgramBytes_eq_ok_iff (bs : List (BitVec 8)) (p : List Instr) :
    decodeProgramBytes bs = .ok p ↔ encodeProgramBytes p = bs :=
  ⟨encodeProgramBytes_of_decode, fun h => h ▸ decodeProgramBytes_encodeProgramBytes p⟩

/-- Settles O3, by induction over the program in one direction and over the bytes in the other. -/
theorem programDecodeEncodeAgree : Obligations.ProgramDecodeEncodeAgree := by
  refine ⟨decodeProgramBytes_eq_ok_iff, fun p => ?_, fun ops => ?_⟩
  · rw [encodeProgram, List.map_map]
    exact List.map_id'' decode_encode p
  · rw [encodeProgram, List.map_map]
    exact List.map_id'' encode_decode ops

end Sys2Proof
end

section
/-! PROOFS. The assembler (spec/30_encoding.md R92, R93): one line of a listing, then the listing. -/

namespace Sys2Proof.Machine

open Sys2Proof

/-! ### The mnemonics -/

@[simp] theorem ofMnemonic_mnemonic (i : Instr) : ofMnemonic (mnemonic i) = some i := by
  cases i with
  | read | advance | reset | construct => decide

theorem mnemonic_ne_nil (i : Instr) : mnemonic i ≠ [] := by
  cases i with
  | read | advance | reset | construct => decide

theorem newline_notMem_mnemonic (i : Instr) : '\n' ∉ mnemonic i := by
  cases i with
  | read | advance | reset | construct => decide

theorem semicolon_notMem_mnemonic (i : Instr) : ';' ∉ mnemonic i := by
  cases i with
  | read | advance | reset | construct => decide

theorem trimBlanks_mnemonic_blank (i : Instr) : trimBlanks (mnemonic i ++ [' ']) = mnemonic i := by
  cases i with
  | read | advance | reset | construct => decide

/-! ### One line -/

/-- What stands before the first semicolon is the line without its comment (R92). -/
theorem beforeComment_append {l : List Char} (h : ';' ∉ l) (comment : List Char) :
    beforeComment (l ++ ';' :: comment) = l := by
  have hkept : ∀ c ∈ l, (!(c == ';')) = true := fun c hc => by
    have hne : c ≠ ';' := fun he => h (he ▸ hc)
    simpa using hne
  rw [beforeComment, List.takeWhile_append_of_pos hkept]
  simp

theorem assembleLine_of_mnemonic {l : List Char} {i : Instr} (h : trimBlanks (beforeComment l) = mnemonic i) :
    assembleLine l = .ok [i] := by
  unfold assembleLine
  rw [h]
  split
  next hnil => exact absurd hnil (mnemonic_ne_nil i)
  next => rw [ofMnemonic_mnemonic]

/-- The line of a listing that holds a command: its mnemonic, a blank, and its comment after the semicolon. -/
def listingLine (i : Instr) (comment : List Char) : List Char := (mnemonic i ++ [' ']) ++ ';' :: comment

theorem listing_cons (i : Instr) (comment : List Char) (p : List (Instr × List Char)) :
    listing ((i, comment) :: p) = listingLine i comment ++ '\n' :: listing p := by
  simp [listing, listingLine]

theorem assembleLine_listingLine (i : Instr) (comment : List Char) :
    assembleLine (listingLine i comment) = .ok [i] := by
  have hsemi : ';' ∉ mnemonic i ++ [' '] := by simp [semicolon_notMem_mnemonic i]
  apply assembleLine_of_mnemonic
  rw [listingLine, beforeComment_append hsemi, trimBlanks_mnemonic_blank]

theorem newline_notMem_listingLine (i : Instr) {comment : List Char} (h : '\n' ∉ comment) :
    '\n' ∉ listingLine i comment := by
  simp [listingLine, newline_notMem_mnemonic i, h]

/-! ### The listing -/

theorem splitLines_append {l : List Char} (h : '\n' ∉ l) (rest : List Char) :
    splitLines (l ++ '\n' :: rest) = l :: splitLines rest := by
  induction l with
  | nil => rfl
  | cons c l ih =>
    obtain ⟨hc, hl⟩ := not_or.mp (List.mem_cons.not.mp h)
    simp [splitLines, Ne.symm hc, ih hl]

/-- A first line without a line break is assembled, then the text after it. -/
theorem assemble_append {l rest : List Char} {p q : List Instr} (hn : '\n' ∉ l) (hl : assembleLine l = .ok p)
    (hr : assemble rest = .ok q) : assemble (l ++ '\n' :: rest) = .ok (p ++ q) := by
  rw [assemble] at hr ⊢
  rw [splitLines_append hn, assembleLines, hl, hr]

/-- Settles O4, by induction over the listing. -/
theorem assemblerReadsListings : Obligations.AssemblerReadsListings := by
  intro p
  induction p with
  | nil => exact fun _ => by decide
  | cons line p ih =>
    obtain ⟨i, comment⟩ := line
    intro h
    obtain ⟨hcomment, hrest⟩ := List.forall_mem_cons.mp h
    rw [listing_cons]
    exact assemble_append (newline_notMem_listingLine i hcomment) (assembleLine_listingLine i comment) (ih hrest)

end Sys2Proof.Machine
end

section
/-! PROOFS. The channels (spec/30_encoding.md R84 to R89): which pins an edge sees, which outputs can be high together, what
an edge does that accepts a command or finds a response presented, and the data of a response. -/

namespace Sys2Proof.Machine

open Sys2Proof

/-! ### The outputs -/

@[simp] theorem State.cmdReady_low (s : State) : s.cmdReady false = false := rfl
@[simp] theorem State.rspValid_low (s : State) : s.rspValid false = false := rfl
@[simp] theorem State.entReady_low (s : State) : s.entReady false = false := rfl

theorem State.cmdReady_true_iff (s : State) : s.cmdReady true = true ↔ s.busy = false := by
  simp [State.cmdReady]

theorem State.entReady_true_iff (s : State) : s.entReady true = true ↔ s.busy = true ∧ s.progress ≠ .done := by
  simp [State.entReady]

theorem State.cmdReady_of_busy {s : State} (h : s.busy = true) (rstN : Bool) : s.cmdReady rstN = false := by
  simp [State.cmdReady, h]

theorem State.rspValid_of_idle {s : State} (h : s.busy = false) (rstN : Bool) : s.rspValid rstN = false := by
  simp [State.rspValid, h]

theorem State.entReady_of_idle {s : State} (h : s.busy = false) (rstN : Bool) : s.entReady rstN = false := by
  simp [State.entReady, h]

theorem State.entReady_of_done {s : State} (h : s.progress = .done) (rstN : Bool) : s.entReady rstN = false := by
  simp [State.entReady, h]

theorem State.rspValid_of_drawing {s : State} (h : s.progress ≠ .done) (rstN : Bool) : s.rspValid rstN = false := by
  simp [State.rspValid, h]

theorem State.outputs_rsp_eq_none {s : State} {rstN : Bool} (h : s.rspValid rstN = false) :
    (s.outputs rstN).rsp = none := by
  simp [State.outputs, h]

/-- Settles O39. -/
theorem readySignalsExclusive : Obligations.ReadySignalsExclusive := by
  intro s
  refine ⟨s.cmdReady_true_iff, fun hc => ?_, fun he => ?_, s.cmdReady_low,
    State.outputs_rsp_eq_none s.rspValid_low, s.entReady_low⟩
  · have hidle : s.busy = false := s.cmdReady_true_iff.mp hc
    exact ⟨State.outputs_rsp_eq_none (State.rspValid_of_idle hidle true), State.entReady_of_idle hidle true⟩
  · obtain ⟨_, hdraw⟩ := s.entReady_true_iff.mp he
    exact State.outputs_rsp_eq_none (State.rspValid_of_drawing hdraw true)

/-! ### Which pins an edge sees -/

/-- A handshake needs both sides: the one side counts only where the other is ready. -/
theorem and_eq_and_of_ready {ready v v' : Bool} (h : ready = true → v = v') : (ready && v) = (ready && v') := by
  cases ready with
  | false => rfl
  | true => exact h rfl

/-- An edge sees the pins of a channel only where the engine is ready for its handshake, and the data only where the other
side is ready too: samples that agree on those pins make the same event. -/
theorem State.edgeEvent_congr {s : State} {p q : Pins} (hr : q.rstN = p.rstN)
    (hc : s.cmdReady p.rstN = true → q.cmdValid = p.cmdValid ∧ (p.cmdValid = true → q.cmdOp = p.cmdOp))
    (ht : s.rspValid p.rstN = true → q.rspReady = p.rspReady)
    (he : s.entReady p.rstN = true → q.entValid = p.entValid ∧ (p.entValid = true → q.answer = p.answer)) :
    s.edgeEvent q = s.edgeEvent p := by
  have haccept : (s.cmdReady p.rstN && q.cmdValid) = (s.cmdReady p.rstN && p.cmdValid) :=
    and_eq_and_of_ready fun h => (hc h).1
  have htake : (s.rspValid p.rstN && q.rspReady) = (s.rspValid p.rstN && p.rspReady) := and_eq_and_of_ready ht
  have hanswer : (s.entReady p.rstN && q.entValid) = (s.entReady p.rstN && p.entValid) :=
    and_eq_and_of_ready fun h => (he h).1
  unfold State.edgeEvent
  rw [hr, haccept, htake, hanswer]
  refine ite_congr rfl (fun _ => rfl) fun _ => ite_congr rfl (fun h => ?_) fun _ =>
    ite_congr rfl (fun _ => rfl) fun _ => ite_congr rfl (fun h => ?_) fun _ => rfl
  · obtain ⟨hready, hvalid⟩ := Bool.and_eq_true_iff.mp h
    exact congrArg EdgeEvent.accept ((hc hready).2 hvalid)
  · obtain ⟨hready, hvalid⟩ := Bool.and_eq_true_iff.mp h
    exact congrArg EdgeEvent.answer ((he hready).2 hvalid)

/-- The step sees nothing of the sample but the event it makes of the edge. -/
theorem step_congr_of_edgeEvent {s : State} {p q : Pins} (h : s.edgeEvent q = s.edgeEvent p) (rest : List Pins) :
    step { s with inputs := p :: rest } = step { s with inputs := q :: rest } := by
  have hev : ({ s with inputs := q :: rest } : State).edgeEvent q =
      ({ s with inputs := p :: rest } : State).edgeEvent p := h
  unfold step
  simp only [State.pins, List.headD_cons, hev]
  rfl

/-- A failed answer is the same whatever data goes with it (R89, R176 item 3). -/
theorem Pins.answer_of_entErr {p : Pins} (h : p.entErr = true) : p.answer = .fail := if_pos h

/-- Settles O35. -/
theorem commandPinsOnlySampledAtAcceptance : Obligations.CommandPinsOnlySampledAtAcceptance := by
  intro s p q rest hq hcase
  apply step_congr_of_edgeEvent
  rw [hq]
  refine State.edgeEvent_congr rfl (fun hready => ?_) (fun _ => rfl) fun _ => ⟨rfl, fun _ => rfl⟩
  rcases hcase with hr | hb | ⟨hp, hq⟩
  · rw [hr, State.cmdReady_low] at hready
    cases hready
  · rw [State.cmdReady_of_busy hb] at hready
    cases hready
  · exact ⟨hq.trans hp.symm, fun hv => absurd hv (by simp [hp])⟩

/-- Settles O36. -/
theorem answersOnlySeenWhenRequested : Obligations.AnswersOnlySeenWhenRequested := by
  refine ⟨fun s p q rest hq hcase => step_congr_of_edgeEvent ?_ rest,
    fun s p q rest hq hrsp => step_congr_of_edgeEvent ?_ rest⟩
  · rw [hq]
    refine State.edgeEvent_congr rfl (fun _ => ⟨rfl, fun _ => rfl⟩) (fun _ => rfl) fun hready => ?_
    rcases hcase with he | ⟨hp, hq⟩ | ⟨hv, hp, hq⟩
    · rw [he] at hready
      cases hready
    · exact ⟨hq.trans hp.symm, fun hv => absurd hv (by simp [hp])⟩
    · exact ⟨hv.symm, fun _ => (Pins.answer_of_entErr hq).trans (Pins.answer_of_entErr hp).symm⟩
  · rw [hq]
    refine State.edgeEvent_congr rfl (fun _ => ⟨rfl, fun _ => rfl⟩) (fun hvalid => ?_) fun _ => ⟨rfl, fun _ => rfl⟩
    rw [hrsp] at hvalid
    cases hvalid

/-! ### The edge that accepts a command -/

theorem State.edgeEvent_accept {s : State} {p : Pins} (hr : p.rstN = true) (hv : p.cmdValid = true)
    (hb : s.busy = false) : s.edgeEvent p = .accept p.cmdOp := by
  simp [State.edgeEvent, State.cmdReady, hr, hv, hb]

/-- Settles O33. -/
theorem stepRunsTheAcceptedCommand : Obligations.StepRunsTheAcceptedCommand := by
  intro s p rest hin hr hv hb
  obtain ⟨hpins, hnext⟩ := step_of_inputs hin
  have hev : s.edgeEvent s.pins = .accept p.cmdOp := by rw [hpins, State.edgeEvent_accept hr hv hb]
  rw [step_of_accept hev, hnext]

/-- The host presents the command of a table word (log 12). -/
theorem commandPins_of_decode {nbits w : Nat} {i : Instr} (h : decodeTableWord nbits w = some i) :
    commandPins nbits w = { cmdValid := true, cmdOp := encode i } := by
  simp [commandPins, h]

/-- Settles O34. -/
theorem fetchWordIsRunNext : Obligations.FetchWordIsRunNext := by
  intro s nbits w i hi
  have hpins : commandPins nbits w = commandEdge (encode i) := commandPins_of_decode hi
  have hin : (s.withFetchWord nbits w).inputs = commandEdge (encode i) :: s.inputs := by
    rw [State.withFetchWord_inputs, hpins]
  have hstep := stepRunsTheAcceptedCommand _ _ _ hin rfl rfl (s.withFetchWord_busy nbits w)
  have hop : decode (commandEdge (encode i)).cmdOp = i := decode_encode i
  rw [hop] at hstep
  exact hstep

/-! ### The edges at which a response is presented -/

theorem State.quietEdge_of_presented {s : State} (h : s.wait = 0) : s.quietEdge = s := by
  have hw : (if s.busy && decide (s.progress = .done) then s.wait - 1 else s.wait) = s.wait := by simp [h]
  rw [State.quietEdge, hw]

/-- A presented response is taken where the host is ready, and the edge is quiet where it is not (R86). -/
theorem State.edgeEvent_of_presented {s : State} {p : Pins} (hr : p.rstN = true) (hv : s.rspValid true = true) :
    s.edgeEvent p = if p.rspReady then .take else .quiet := by
  obtain ⟨hb, hd, _⟩ := s.rspValid_true_iff.mp hv
  simp [State.edgeEvent, hr, hv, State.cmdReady_of_busy hb, State.entReady_of_done hd]

/-- Settles O37. -/
theorem responseHeldUntilTaken : Obligations.ResponseHeldUntilTaken := by
  intro s p rest hin hr hv
  obtain ⟨hpins, hnext⟩ := step_of_inputs hin
  obtain ⟨_, _, hw⟩ := s.rspValid_true_iff.mp hv
  have hev := State.edgeEvent_of_presented hr hv
  refine ⟨fun hq => ⟨?_, rfl⟩, fun hq => ⟨?_, State.rspValid_of_idle rfl true⟩⟩
  · have hquiet : s.edgeEvent s.pins = .quiet := by rw [hpins, hev, hq]; rfl
    rw [step_of_quiet hquiet, State.quietEdge_of_presented (s := s.nextEdge) hw, hnext]
  · have htake : s.edgeEvent s.pins = .take := by rw [hpins, hev, hq]; rfl
    rw [step_of_take htake, hnext]
    rfl

/-! ### The data of a response -/

/-- The draw that ends a CONSTRUCT leaves a response with data 0, whether it completes or fails (R86). -/
theorem State.consume_rspData {s : State} {a : Answer} (hd : s.progress ≠ .done)
    (hd' : (s.consume a).progress = .done) : (s.consume a).rspData = 0#32 := by
  rcases s.consume_cases a with ⟨hp, h⟩ | ⟨_, _, h⟩ | ⟨_, _, hp, _, h⟩ | ⟨_, _, _, _, h⟩ | ⟨_, _, hp, _, h⟩ |
    ⟨_, _, _, _, h⟩ <;> rw [h] at hd' ⊢
  · exact absurd hp hd
  · exact State.raise_entropyFail_rspData s _
  · exact absurd hd' hd
  · cases hd'
  · exact absurd hd' hd
  · exact State.completeConstruct_rspData _

theorem State.drain_rspData {s : State} (hd : s.progress ≠ .done) (as : List Answer) :
    (State.drain as s).progress = .done → (State.drain as s).rspData = 0#32 :=
  State.drain_induction (P := fun u => u.progress = .done → u.rspData = 0#32)
    (fun _ _ hp _ hd' => State.consume_rspData hp hd') (fun _ _ h => h) as s fun h => absurd h hd

/-- Settles O30. -/
theorem onlyReadReturnsData : Obligations.OnlyReadReturnsData := by
  intro i s t h hd hi
  cases exec_executed h with
  | unseeded => exact State.raise_notSeeded_rspData s _
  | read => exact hi.elim (absurd rfl) (absurd rfl)
  | advance | reset => rfl
  | construct => exact State.drain_rspData (by simp) s.entropy hd

end Sys2Proof.Machine
end

section
/-! PROOFS. CONSTRUCT on the answers at hand (spec/40_construct_reset.md R101 to R107): what the draws of each phase do, the
three shapes a list of answers can have, and how the command stands after each. -/

namespace Sys2Proof.Machine

open Sys2Proof

/-! ### The ring words -/

/-- Ring words filled one after another (R104). -/
def Storage.fillAll {k : Nat} (st : Storage k) (words : List Word) : Storage k := words.foldl Storage.fill st

@[simp] theorem Storage.fillAll_nil {k : Nat} (st : Storage k) : st.fillAll [] = st := rfl

theorem Storage.fillAll_cons {k : Nat} (st : Storage k) (w : Word) (words : List Word) :
    st.fillAll (w :: words) = (st.fill w).fillAll words := rfl

theorem Storage.fillAll_concat {k : Nat} (st : Storage k) (words : List Word) (w : Word) :
    st.fillAll (words ++ [w]) = (st.fillAll words).fill w := by
  simp [Storage.fillAll]

@[simp] theorem Storage.fillAll_heldCarry {k : Nat} (st : Storage k) (words : List Word) :
    (st.fillAll words).heldCarry = st.heldCarry := by
  induction words generalizing st with
  | nil => rfl
  | cons w words ih => rw [Storage.fillAll_cons, ih, Storage.fill_heldCarry]

theorem Storage.fillAll_fillIndex {k : Nat} (st : Storage k) (words : List Word) :
    (st.fillAll words).fillIndex = st.fillIndex + BitVec.ofNat k words.length := by
  induction words generalizing st with
  | nil => simp
  | cons w words ih =>
    rw [Storage.fillAll_cons, ih, Storage.fill_fillIndex, BitVec.add_assoc, ← BitVec.ofNat_add, List.length_cons,
      Nat.add_comm]

/-- Before the ring is full the fill index counts the words. -/
theorem Storage.fillAll_fillIndex_toNat {k : Nat} {st : Storage k} (h0 : st.fillIndex = 0#k) {words : List Word}
    (hw : words.length < 2 ^ k) : (st.fillAll words).fillIndex.toNat = words.length := by
  rw [Storage.fillAll_fillIndex, h0, BitVec.zero_add, BitVec.toNat_ofNat, Nat.mod_eq_of_lt hw]

theorem set_length_append_drop {α : Type} {xs ys : List α} (h : xs.length < ys.length) (a : α) :
    (xs ++ ys.drop xs.length).set xs.length a = (xs ++ [a]) ++ ys.drop (xs ++ [a]).length := by
  rw [List.set_append_right _ _ le_rfl, Nat.sub_self, List.drop_eq_getElem_cons h, List.set_cons_zero]
  simp

/-- The words filled so far stand at the front of both rings, in order. -/
theorem Storage.fillAll_rings {k : Nat} {st : Storage k} (h0 : st.fillIndex = 0#k) {words : List Word}
    (hw : words.length ≤ 2 ^ k) :
    (st.fillAll words).ring.toList = words ++ st.ring.toList.drop words.length ∧
    (st.fillAll words).initialRing.toList = words ++ st.initialRing.toList.drop words.length := by
  induction words using List.reverseRecOn with
  | nil => exact ⟨rfl, rfl⟩
  | append_singleton words w ih =>
    have hlt : words.length < 2 ^ k := by simpa using hw
    obtain ⟨hring, hinit⟩ := ih hlt.le
    rw [Storage.fillAll_concat, Storage.fill_ring_toList, Storage.fill_initialRing_toList, hring, hinit,
      Storage.fillAll_fillIndex_toNat h0 hlt]
    exact ⟨set_length_append_drop (by simpa using hlt) w, set_length_append_drop (by simpa using hlt) w⟩

/-- A full ring holds the words and nothing of what stood there (R104). -/
theorem Storage.fillAll_rings_full {k : Nat} {st : Storage k} (h0 : st.fillIndex = 0#k) {words : List Word}
    (hw : words.length = 2 ^ k) :
    (st.fillAll words).ring.toList = words ∧ (st.fillAll words).initialRing.toList = words := by
  obtain ⟨hring, hinit⟩ := Storage.fillAll_rings h0 hw.le
  rw [hring, hinit, List.drop_of_length_le (by simp [hw]), List.drop_of_length_le (by simp [hw]), List.append_nil]
  exact ⟨rfl, rfl⟩

/-! ### A CONSTRUCT between two draws -/

/-- The engine that has accepted a CONSTRUCT and drawn, after any rejected candidates, `drawn`: the accepted candidate, then
ring words (R103, R104). -/
def State.afterDraws (s : State) : List Word → State
  | [] => s.beginConstruct
  | v :: words =>
    { s.beginConstruct with storage := (s.storage.holdCarry v).fillAll words, progress := .fillRing }

theorem State.afterDraws_progress (s : State) (drawn : List Word) : (s.afterDraws drawn).progress ≠ .done := by
  cases drawn <;> exact nofun

@[simp] theorem State.afterDraws_build (s : State) (drawn : List Word) : (s.afterDraws drawn).build = s.build := by
  cases drawn <;> rfl

@[simp] theorem State.afterDraws_inputs (s : State) (drawn : List Word) : (s.afterDraws drawn).inputs = s.inputs := by
  cases drawn <;> rfl

/-- Rejected candidates leave no trace (R103). -/
theorem State.drain_rejected {s : State} (hp : s.progress = .drawCarry) {rejected : List Word}
    (hr : ∀ r ∈ rejected, s.build.cMax.toNat ≤ r.toNat) (as : List Answer) :
    State.drain (rejected.map .word ++ as) s = State.drain as s := by
  induction rejected with
  | nil => rfl
  | cons r rejected ih =>
    obtain ⟨hhead, htail⟩ := List.forall_mem_cons.mp hr
    rw [List.map_cons, List.cons_append, State.drain_cons (by simp [hp]), State.consume_rejected hp hhead, ih htail]

theorem State.afterDraws_consume_candidate (s : State) {v : Word} (hv : v.toNat < s.build.cMax.toNat) :
    (s.afterDraws []).consume (.word v) = s.afterDraws [v] :=
  State.consume_accepted (s := s.beginConstruct) rfl hv

theorem State.afterDraws_consume_ringWord (s : State) (v : Word) {words : List Word} (hw : words.length + 1 < s.cycle)
    (w : Word) : (s.afterDraws (v :: words)).consume (.word w) = s.afterDraws (v :: (words ++ [w])) := by
  have hcycle : words.length + 1 < 2 ^ s.build.log2Cycle := hw
  have hindex := Storage.fillAll_fillIndex_toNat (s.storage.holdCarry_fillIndex v) (Nat.lt_of_succ_lt hcycle)
  have hl : ((s.storage.holdCarry v).fillAll words).fillIndex ≠ lastIndex s.build.log2Cycle := by
    intro he
    rw [he, lastIndex_toNat] at hindex
    omega
  rw [State.consume_ringWord (s := s.afterDraws (v :: words)) rfl hl]
  simp only [State.afterDraws, Storage.fillAll_concat]
  rfl

theorem State.afterDraws_consume_lastRingWord (s : State) (v : Word) {words : List Word}
    (hw : words.length + 1 = s.cycle) (w : Word) :
    (s.afterDraws (v :: words)).consume (.word w) = (s.afterDraws (v :: (words ++ [w]))).completeConstruct := by
  have hcycle : words.length + 1 = 2 ^ s.build.log2Cycle := hw
  have hindex := Storage.fillAll_fillIndex_toNat (s.storage.holdCarry_fillIndex v) (by omega : words.length < _)
  have hl : ((s.storage.holdCarry v).fillAll words).fillIndex = lastIndex s.build.log2Cycle := by
    apply BitVec.eq_of_toNat_eq
    rw [hindex, lastIndex_toNat]
    omega
  rw [State.consume_lastRingWord (s := s.afterDraws (v :: words)) rfl hl]
  simp only [State.afterDraws, Storage.fillAll_concat]
  rfl

/-- The draws of fewer than CYCLE ring words. -/
theorem State.drain_ringWords (s : State) (v : Word) {words : List Word} (hw : words.length < s.cycle)
    (as : List Answer) :
    State.drain (words.map .word ++ as) (s.afterDraws [v]) = State.drain as (s.afterDraws (v :: words)) := by
  induction words using List.reverseRecOn generalizing as with
  | nil => rfl
  | append_singleton words w ih =>
    have hlt : words.length + 1 < s.cycle := by simpa using hw
    rw [List.map_append, List.append_assoc, ih (Nat.lt_of_succ_lt hlt), List.map_singleton, List.singleton_append,
      State.drain_cons (s.afterDraws_progress _), s.afterDraws_consume_ringWord v hlt]

/-- The draws of a CONSTRUCT that its words do not complete. -/
theorem State.drain_beginConstruct {s : State} {rejected drawn : List Word}
    (hr : ∀ r ∈ rejected, s.build.cMax.toNat ≤ r.toNat) (hd : ∀ v ∈ drawn.head?, v.toNat < s.build.cMax.toNat)
    (hlen : drawn.length ≤ s.cycle) (as : List Answer) :
    State.drain (rejected.map .word ++ (drawn.map .word ++ as)) s.beginConstruct =
      State.drain as (s.afterDraws drawn) := by
  rw [State.drain_rejected s.beginConstruct_progress hr]
  cases drawn with
  | nil => rfl
  | cons v words =>
    have haccept := s.afterDraws_consume_candidate (hd v rfl)
    rw [List.map_cons, List.cons_append, State.drain_cons (by simp), ← s.drain_ringWords v hlen, ← haccept]
    rfl

/-! ### CONSTRUCT on each shape of answers -/

/-- All words at hand (R103 to R105). -/
theorem exec_construct_completes {s : State} {rejected : List Word} {v : Word} {words : List Word} {rest : List Answer}
    (hr : ∀ r ∈ rejected, s.build.cMax.toNat ≤ r.toNat) (hv : v.toNat < s.build.cMax.toNat)
    (hw : words.length = s.cycle)
    (he : s.entropy = rejected.map .word ++ .word v :: (words.map .word ++ rest)) :
    exec .construct s = .next { (s.afterDraws (v :: words)).completeConstruct with entropy := rest } := by
  have hne : words ≠ [] := by
    rintro rfl
    exact absurd hw (Nat.two_pow_pos s.build.log2Cycle).ne
  obtain ⟨front, w, rfl⟩ := (List.eq_nil_or_concat' words).resolve_left hne
  have hlast : front.length + 1 = s.cycle := by simpa using hw
  have hanswers : s.entropy = rejected.map .word ++ ((v :: front).map .word ++ .word w :: rest) := by simp [he]
  have hhead : ∀ x ∈ (v :: front).head?, x.toNat < s.build.cMax.toNat := by simpa using hv
  rw [exec_construct, hanswers, State.drain_beginConstruct hr hhead hlast.le,
    State.drain_cons (s.afterDraws_progress _), s.afterDraws_consume_lastRingWord v hlast,
    State.drain_done (State.completeConstruct_progress _)]

/-- A failed answer before that (R106). -/
theorem exec_construct_fails {s : State} {rejected drawn : List Word} {rest : List Answer}
    (hr : ∀ r ∈ rejected, s.build.cMax.toNat ≤ r.toNat) (hd : ∀ v ∈ drawn.head?, v.toNat < s.build.cMax.toNat)
    (hlen : drawn.length ≤ s.cycle)
    (he : s.entropy = rejected.map .word ++ (drawn.map .word ++ .fail :: rest)) :
    exec .construct s =
      .next { (s.afterDraws drawn).raise .entropyFail s.build.latency.construct with entropy := rest } := by
  rw [exec_construct, he, State.drain_beginConstruct hr hd hlen, State.drain_cons (s.afterDraws_progress _),
    State.consume_fail (s.afterDraws_progress _), State.drain_done (State.raise_entropyFail_progress _ _),
    State.afterDraws_build]

/-- The answers run out before that (R209). -/
theorem exec_construct_waits {s : State} {rejected drawn : List Word}
    (hr : ∀ r ∈ rejected, s.build.cMax.toNat ≤ r.toNat) (hd : ∀ v ∈ drawn.head?, v.toNat < s.build.cMax.toNat)
    (hlen : drawn.length ≤ s.cycle) (he : s.entropy = rejected.map .word ++ drawn.map .word) :
    exec .construct s = .next { s.afterDraws drawn with entropy := [] } := by
  have hdrain := State.drain_beginConstruct hr hd hlen []
  rw [List.append_nil] at hdrain
  rw [exec_construct, he, hdrain, State.drain_nil]

/-- The architectural record after a CONSTRUCT with the carry `v` and the ring words `words` (R103 to R105). -/
def constructedRecord (b : Build) (v : Word) (words : List Word) : EngineState where
  log2Cycle := b.log2Cycle
  cMax := b.cMax
  ring := words
  initialRing := words
  carry := v
  initialCarry := v
  cursor := b.cycle - 1
  seeded := true
  fatal := false

theorem State.completeConstruct_afterDraws_engineState (s : State) (v : Word) {words : List Word}
    (hw : words.length = s.cycle) :
    (s.afterDraws (v :: words)).completeConstruct.engineState = constructedRecord s.build v words := by
  obtain ⟨hring, hinit⟩ := Storage.fillAll_rings_full (s.storage.holdCarry_fillIndex v) hw
  have hheld : ((s.storage.holdCarry v).fillAll words).heldCarry = v := by simp
  have hlast : (lastIndex s.build.log2Cycle).toNat = s.cycle - 1 := lastIndex_toNat _
  rw [EngineState.mk.injEq]
  exact ⟨rfl, rfl, hring, hinit, hheld, hheld, hlast, rfl, rfl⟩

/-- Settles O18. -/
theorem constructCompletes : Obligations.ConstructCompletes := by
  intro s rejected v words rest hr hv hw he
  exact ⟨_, exec_construct_completes hr hv hw he, s.completeConstruct_afterDraws_engineState v hw,
    rfl, rfl, rfl, rfl, rfl, rfl, rfl, rfl, rfl⟩

/-- Settles O19. -/
theorem constructFailsAtTheFailedDraw : Obligations.ConstructFailsAtTheFailedDraw := by
  intro s rejected drawn rest hr hd hlen he
  exact ⟨_, exec_construct_fails hr hd hlen he, rfl, rfl, rfl, rfl, rfl, rfl, rfl, s.afterDraws_build drawn, rfl,
    s.afterDraws_inputs drawn⟩

/-! ### Every list of answers has one of the three shapes -/

/-- The answers to the draws of `n` ring words. -/
theorem ringAnswers_cases (n : Nat) (as : List Answer) :
    (∃ (words : List Word) (rest : List Answer), words.length = n ∧ as = words.map .word ++ rest) ∨
    (∃ (words : List Word) (rest : List Answer), words.length < n ∧ as = words.map .word ++ .fail :: rest) ∨
    (∃ words : List Word, words.length < n ∧ as = words.map .word) := by
  induction n generalizing as with
  | zero => exact .inl ⟨[], as, rfl, rfl⟩
  | succ n ih =>
    match as with
    | [] => exact .inr (.inr ⟨[], n.succ_pos, rfl⟩)
    | .fail :: rest => exact .inr (.inl ⟨[], rest, n.succ_pos, rfl⟩)
    | .word w :: rest =>
      rcases ih rest with ⟨words, rest, hw, rfl⟩ | ⟨words, rest, hw, rfl⟩ | ⟨words, hw, rfl⟩
      · exact .inl ⟨w :: words, rest, congrArg (· + 1) hw, rfl⟩
      · exact .inr (.inl ⟨w :: words, rest, Nat.succ_lt_succ hw, rfl⟩)
      · exact .inr (.inr ⟨w :: words, Nat.succ_lt_succ hw, rfl⟩)

/-- What the answers at hand make of a CONSTRUCT of this build: the premises of `exec_construct_completes`,
`exec_construct_fails` and `exec_construct_waits`. -/
inductive ConstructAnswers (b : Build) (as : List Answer) : Prop where
  | complete (rejected : List Word) (v : Word) (words : List Word) (rest : List Answer)
      (hr : ∀ r ∈ rejected, b.cMax.toNat ≤ r.toNat) (hv : v.toNat < b.cMax.toNat) (hw : words.length = b.cycle)
      (he : as = rejected.map .word ++ .word v :: (words.map .word ++ rest))
  | fail (rejected drawn : List Word) (rest : List Answer) (hr : ∀ r ∈ rejected, b.cMax.toNat ≤ r.toNat)
      (hd : ∀ v ∈ drawn.head?, v.toNat < b.cMax.toNat) (hlen : drawn.length ≤ b.cycle)
      (he : as = rejected.map .word ++ (drawn.map .word ++ .fail :: rest))
  | wait (rejected drawn : List Word) (hr : ∀ r ∈ rejected, b.cMax.toNat ≤ r.toNat)
      (hd : ∀ v ∈ drawn.head?, v.toNat < b.cMax.toNat) (hlen : drawn.length ≤ b.cycle)
      (he : as = rejected.map .word ++ drawn.map .word)

/-- After the accepted candidate the ring words decide. -/
theorem ConstructAnswers.of_accepted {b : Build} {v : Word} (hv : v.toNat < b.cMax.toNat) (as : List Answer) :
    ConstructAnswers b (.word v :: as) := by
  have hhead (words : List Word) : ∀ x ∈ (v :: words).head?, x.toNat < b.cMax.toNat := by simpa using hv
  rcases ringAnswers_cases b.cycle as with ⟨words, rest, hw, rfl⟩ | ⟨words, rest, hw, rfl⟩ | ⟨words, hw, rfl⟩
  · exact .complete [] v words rest (by simp) hv hw rfl
  · exact .fail [] (v :: words) rest (by simp) (hhead words) hw rfl
  · exact .wait [] (v :: words) (by simp) (hhead words) hw rfl

theorem ConstructAnswers.cons_rejected {b : Build} {r : Word} (hr : b.cMax.toNat ≤ r.toNat) {as : List Answer}
    (h : ConstructAnswers b as) : ConstructAnswers b (.word r :: as) := by
  have hcons {rejected : List Word} (h : ∀ x ∈ rejected, b.cMax.toNat ≤ x.toNat) :
      ∀ x ∈ r :: rejected, b.cMax.toNat ≤ x.toNat := List.forall_mem_cons.mpr ⟨hr, h⟩
  cases h with
  | complete rejected v words rest hr hv hw he =>
    exact .complete (r :: rejected) v words rest (hcons hr) hv hw (congrArg (_ :: ·) he)
  | fail rejected drawn rest hr hd hlen he =>
    exact .fail (r :: rejected) drawn rest (hcons hr) hd hlen (congrArg (_ :: ·) he)
  | wait rejected drawn hr hd hlen he =>
    exact .wait (r :: rejected) drawn (hcons hr) hd hlen (congrArg (_ :: ·) he)

theorem constructAnswers (b : Build) (as : List Answer) : ConstructAnswers b as := by
  induction as with
  | nil => exact .wait [] [] (by simp) (by simp) (Nat.zero_le _) rfl
  | cons a as ih =>
    cases a with
    | fail => exact .fail [] [] as (by simp) (by simp) (Nat.zero_le _) rfl
    | word v =>
      by_cases hv : v.toNat < b.cMax.toNat
      · exact .of_accepted hv as
      · exact ih.cons_rejected (Nat.not_lt.mp hv)

/-! ### What a finished CONSTRUCT has consumed -/

/-- A CONSTRUCT that answers `OK` had all words at hand, and its record is made of them. -/
theorem exec_construct_ok {s t : State} (h : exec .construct s = .next t) (hd : t.progress = .done)
    (hok : t.rspStatus = .ok) :
    ∃ (rejected : List Word) (v : Word) (words : List Word),
      (∀ r ∈ rejected, s.build.cMax.toNat ≤ r.toNat) ∧ v.toNat < s.build.cMax.toNat ∧ words.length = s.cycle ∧
      s.entropy = rejected.map .word ++ .word v :: (words.map .word ++ t.entropy) ∧
      t.engineState = constructedRecord s.build v words := by
  cases constructAnswers s.build s.entropy with
  | complete rejected v words rest hr hv hw he =>
    rw [exec_construct_completes hr hv hw he] at h
    cases h
    exact ⟨rejected, v, words, hr, hv, hw, he, s.completeConstruct_afterDraws_engineState v hw⟩
  | fail rejected drawn rest hr hd hlen he =>
    rw [exec_construct_fails hr hd hlen he] at h
    cases h
    cases hok
  | wait rejected drawn hr hdr hlen he =>
    rw [exec_construct_waits hr hdr hlen he] at h
    cases h
    exact absurd hd (s.afterDraws_progress drawn)

/-- A finished CONSTRUCT that does not answer `OK` stopped at the first failed answer. -/
theorem exec_construct_not_ok {s t : State} (h : exec .construct s = .next t) (hd : t.progress = .done)
    (hok : t.rspStatus ≠ .ok) :
    t.rspStatus = .entropyFail ∧ ∃ used : List Word, s.entropy = used.map .word ++ .fail :: t.entropy := by
  cases constructAnswers s.build s.entropy with
  | complete rejected v words rest hr hv hw he =>
    rw [exec_construct_completes hr hv hw he] at h
    cases h
    exact absurd rfl hok
  | fail rejected drawn rest hr hd hlen he =>
    rw [exec_construct_fails hr hd hlen he] at h
    cases h
    exact ⟨rfl, rejected ++ drawn, by simpa using he⟩
  | wait rejected drawn hr hdr hlen he =>
    rw [exec_construct_waits hr hdr hlen he] at h
    cases h
    exact absurd hd (s.afterDraws_progress drawn)

/-- Settles O21. -/
theorem constructConsumesExactly : Obligations.ConstructConsumesExactly := by
  intro s t h hd
  by_cases hok : t.rspStatus = .ok
  · obtain ⟨rejected, v, words, hr, hv, hw, he, hrecord⟩ := exec_construct_ok h hd hok
    refine .inl ⟨hok, rejected.length + 1, rejected ++ v :: words, Nat.succ_pos _, ?_, ?_, ?_, v, ?_, hv,
      congrArg EngineState.carry hrecord⟩
    · rw [List.length_append, List.length_cons, hw]
      omega
    · simpa using he
    · simpa using hr
    · simp
  · exact .inr (exec_construct_not_ok h hd hok)

/-- Settles O22: both records are the one the answers make. -/
theorem constructForgetsThePast : Obligations.ConstructForgetsThePast := by
  intro s t u v hb he hu hv hd hok
  obtain ⟨rejected, c, words, hr, hc, hw, hs, hrecord⟩ := exec_construct_ok hu hd hok
  have hcycle : s.cycle = t.cycle := congrArg Build.cycle hb
  obtain ⟨v', hv', hrecord', _, _, hvd, hvok, _, _, _, hve, _⟩ :=
    constructCompletes t rejected c words u.entropy (hb ▸ hr) (hb ▸ hc) (hw.trans hcycle) (he ▸ hs)
  cases hv.symm.trans hv'
  have hsame : v.engineState = constructedRecord t.build c words := hrecord'
  refine ⟨hvd, hvok, ?_, hve.symm⟩
  rw [hrecord, hsame, hb]

/-! ### The handshake of a carry candidate -/

/-- Settles O23. -/
theorem carryCandidateAtTheHandshake : Obligations.CarryCandidateAtTheHandshake := by
  intro s p rest hin hr hb hp hv he
  obtain ⟨hpins, hnext⟩ := step_of_inputs hin
  have hword : p.answer = .word p.entData := by simp [Pins.answer, he]
  have hstep := step_of_drawing (hpins ▸ hr) hb (by simp [hp]) (hpins ▸ hv)
  rw [hpins, hword] at hstep
  have hrest : s.nextEdge.inputs = rest := congrArg State.inputs hnext
  by_cases hc : p.entData.toNat < s.build.cMax.toNat
  · rw [State.consume_accepted (s := s.nextEdge) hp hc] at hstep
    refine ⟨_, hstep, hrest, hb, rfl, ?_⟩
    rw [if_pos hc]
    exact ⟨rfl, rfl⟩
  · rw [State.consume_rejected (s := s.nextEdge) hp (Nat.not_lt.mp hc)] at hstep
    refine ⟨_, hstep, hrest, hb, rfl, ?_⟩
    rw [if_neg hc]
    exact ⟨hp, rfl⟩

end Sys2Proof.Machine
end

section
/-! PROOFS. RESET (spec/40_construct_reset.md R111 to R114): it restores the snapshot, and so gives back the state right after
CONSTRUCT, which the other commands leave in the snapshot. -/

namespace Sys2Proof.Machine

open Sys2Proof

/-! ### RESET and READ with SEEDED = 1 -/

theorem exec_read_of_seeded {s : State} (h : s.seeded = true) :
    exec .read s = .next (s.respond .ok s.storage.current s.build.latency.read) := by
  rw [exec_read, State.ifSeeded_of_seeded h]

theorem exec_reset_of_seeded {s : State} (h : s.seeded = true) :
    exec .reset s = .next ((s.withStorage s.storage.restore).respond .ok 0#32 s.build.latency.reset) := by
  rw [exec_reset, State.ifSeeded_of_seeded h]

theorem lastIndex_eq_ofNat (k : Nat) : lastIndex k = BitVec.ofNat k (2 ^ k - 1) := by
  apply BitVec.eq_of_toNat_eq
  rw [lastIndex_toNat, BitVec.toNat_ofNat, Nat.mod_eq_of_lt (Nat.sub_lt (Nat.two_pow_pos k) Nat.one_pos)]

/-- What a RESET restores it finds restored (R111). -/
theorem exec_reset_idempotent {s t : State} (h : exec .reset s = .next t) :
    exec .reset t.takeResponse = .next t := by
  cases exec_executed h with
  | unseeded _ hs => exact exec_reset_of_unseeded hs
  | reset hs => exact exec_reset_of_seeded hs

/-- Settles O15. -/
theorem resetCompletes : Obligations.ResetCompletes := by
  refine ⟨fun s hs => ?_, fun s hs => exec_reset_of_unseeded hs, fun s t u ht hu => ?_⟩
  · have hlast : BitVec.ofNat s.build.log2Cycle (s.cycle - 1) = lastIndex s.build.log2Cycle :=
      (lastIndex_eq_ofNat _).symm
    rw [exec_reset_of_seeded hs, hlast]
    rfl
  · rw [exec_reset_idempotent ht] at hu
    cases hu
    rfl

/-! ### The snapshot along a program without CONSTRUCT -/

theorem State.KeepsConstruction.trans {s t u : State} (h : s.KeepsConstruction t) (h' : t.KeepsConstruction u) :
    s.KeepsConstruction u :=
  ⟨h'.initialRing.trans h.initialRing, h'.initialCarry.trans h.initialCarry, h'.seeded.trans h.seeded,
    h'.fatal.trans h.fatal⟩

theorem transact_keepsConstruction {i : Instr} {s t : State} {r : Response} (hi : i ≠ .construct)
    (h : transact i s = some (r, t)) : s.KeepsConstruction t ∧ t.build = s.build := by
  obtain ⟨u, hu, _, _, rfl⟩ := exec_of_transact h
  obtain ⟨hring, hcarry, hs, hf⟩ := exec_keepsConstruction hi hu
  exact ⟨⟨hring, hcarry, hs, hf⟩, u.takeResponse_build.trans (exec_build hu)⟩

/-- What a sequence of transactions that ends says of its first one and of the others. -/
theorem transactAll_cons_some {i : Instr} {is : List Instr} {s u : State} {rs : List Response}
    (h : transactAll (i :: is) s = some (rs, u)) :
    ∃ (r : Response) (t : State) (rs' : List Response),
      transact i s = some (r, t) ∧ transactAll is t = some (rs', u) ∧ rs = r :: rs' := by
  unfold transactAll at h
  split at h
  case h_1 => cases h
  case h_2 r t ht =>
    split at h
    case h_1 => cases h
    case h_2 rs' u' hu =>
      cases h
      exact ⟨r, t, rs', ht, hu, rfl⟩

theorem transactAll_keepsConstruction {cmds : List Instr} {s t : State} {rs : List Response}
    (hc : .construct ∉ cmds) (h : transactAll cmds s = some (rs, t)) : s.KeepsConstruction t ∧ t.build = s.build := by
  induction cmds generalizing s rs with
  | nil =>
    cases h
    exact ⟨⟨rfl, rfl, rfl, rfl⟩, rfl⟩
  | cons i cmds ih =>
    obtain ⟨r, u, rs', hi, hcmds, _⟩ := transactAll_cons_some h
    obtain ⟨hk, hb⟩ := transact_keepsConstruction (List.ne_of_not_mem_cons hc).symm hi
    obtain ⟨hk', hb'⟩ := ih (List.not_mem_of_not_mem_cons hc) hcmds
    exact ⟨hk.trans hk', hb'.trans hb⟩

/-! ### The way back to the CONSTRUCT -/

theorem State.restore_engineState (s : State) :
    (s.withStorage s.storage.restore).engineState =
      { s.engineState with
        ring := s.engineState.initialRing
        carry := s.engineState.initialCarry
        cursor := s.cycle - 1 } := by
  have hlast : (lastIndex s.build.log2Cycle).toNat = s.cycle - 1 := lastIndex_toNat _
  rw [EngineState.mk.injEq]
  exact ⟨rfl, rfl, rfl, rfl, rfl, rfl, hlast, rfl, rfl⟩

/-- After a successful CONSTRUCT there is nothing to restore (R103 to R105). -/
theorem exec_construct_ok_restore {s t : State} (h : exec .construct s = .next t) (hd : t.progress = .done)
    (hok : t.rspStatus = .ok) : (t.withStorage t.storage.restore).engineState = t.engineState := by
  obtain ⟨_, v, words, _, _, _, _, hrecord⟩ := exec_construct_ok h hd hok
  have hcycle : t.cycle = s.build.cycle := congrArg Build.cycle (exec_build h)
  rw [t.restore_engineState, hrecord, hcycle]
  rfl

/-- Engines with the same snapshot are restored to the same record. -/
theorem State.KeepsConstruction.restore {s t : State} (h : s.KeepsConstruction t) (hb : t.build = s.build) :
    (t.withStorage t.storage.restore).engineState = (s.withStorage s.storage.restore).engineState := by
  rw [s.restore_engineState, t.restore_engineState, EngineState.mk.injEq]
  exact ⟨congrArg Build.log2Cycle hb, congrArg Build.cMax hb, h.initialRing, h.initialRing, h.initialCarry,
    h.initialCarry, congrArg (·.cycle - 1) hb, h.seeded, h.fatal⟩

/-- The word a READ returns stands in the architectural record (R131). -/
theorem State.engineState_current (s : State) : s.engineState.ring[s.engineState.cursor]? = some s.storage.current := by
  simp [State.engineState, Storage.current, Storage.readRing]

theorem State.current_eq_of_engineState {s t : State} (h : s.engineState = t.engineState) :
    s.storage.current = t.storage.current := by
  rw [← Option.some_inj, ← s.engineState_current, ← t.engineState_current, h]

theorem transact_read_of_seeded {s : State} (h : s.seeded = true) :
    ∃ t : State, transact .read s = some (⟨.ok, s.storage.current⟩, t) :=
  ⟨_, transact_of_done (exec_read_of_seeded h) rfl⟩

theorem transact_reset_of_seeded {s : State} (h : s.seeded = true) :
    ∃ t : State, transact .reset s = some (⟨.ok, 0#32⟩, t) ∧ t.seeded = true ∧
      t.engineState = (s.withStorage s.storage.restore).engineState :=
  ⟨_, transact_of_done (exec_reset_of_seeded h) rfl, h, rfl⟩

/-- Settles O16: the program keeps the snapshot, RESET restores it, and right after the CONSTRUCT it is the whole record. -/
theorem resetReturnsToConstruction : Obligations.ResetReturnsToConstruction := by
  intro s s0 s1 cmds rs hconstruct hcmds hrun
  obtain ⟨t, ht, hd, hrsp, rfl⟩ := exec_of_transact hconstruct
  have hok : t.rspStatus = .ok := (congrArg Response.status hrsp).symm
  obtain ⟨hkeeps, hbuild⟩ := transactAll_keepsConstruction hcmds hrun
  have hseeded : t.seeded = true := (exec_construct_constructed ht hd hok).seeded
  have hseeded1 : s1.seeded = true := hkeeps.seeded.trans hseeded
  obtain ⟨s2, hreset, hseeded2, hrestored⟩ := transact_reset_of_seeded hseeded1
  have hback : s2.engineState = t.takeResponse.engineState :=
    calc s2.engineState
      _ = (s1.withStorage s1.storage.restore).engineState := hrestored
      _ = (t.withStorage t.storage.restore).engineState := hkeeps.restore hbuild
      _ = t.engineState := exec_construct_ok_restore ht hd hok
  obtain ⟨s3, hread⟩ := transact_read_of_seeded (s := t.takeResponse) hseeded
  obtain ⟨s4, hread'⟩ := transact_read_of_seeded hseeded2
  rw [State.current_eq_of_engineState hback] at hread'
  exact ⟨s2, s3, s4, _, hreset, hback, hread, hread'⟩

end Sys2Proof.Machine
end

section
/-! PROOFS. READ (spec/41_read.md R131, R132): it answers the word at the cursor and writes no state, and so it shows the
word that CONSTRUCT, RESET and ADVANCE left there. -/

namespace Sys2Proof.Machine

open Sys2Proof

/-! ### READ changes nothing but the response -/

/-- READ must never itself advance the state (R131). -/
theorem exec_read_engineState {s t : State} (h : exec .read s = .next t) : t.engineState = s.engineState := by
  cases exec_executed h with
  | unseeded | read => rfl

/-- A second READ leaves the state that the first one left. -/
theorem exec_read_repeats {s t : State} (h : exec .read s = .next t) : exec .read t.takeResponse = .next t := by
  cases exec_executed h with
  | unseeded _ hs => exact exec_read_of_unseeded hs
  | read hs => exact exec_read_of_seeded hs

/-- Settles O7. -/
theorem readCompletes : Obligations.ReadCompletes := by
  refine ⟨fun s hs => exec_read_of_seeded hs, fun s hs => exec_read_of_unseeded hs, fun s t u ht hu => ?_⟩
  rw [exec_read_repeats ht] at hu
  cases hu
  exact ⟨rfl, rfl, exec_read_engineState ht⟩

/-! ### The word at the cursor after the other commands -/

/-- The only response of a READ with `SEEDED = 1` (R131). -/
theorem response_of_transact_read {s t : State} {r : Response} (hs : s.seeded = true)
    (h : transact .read s = some (r, t)) : r = ⟨.ok, s.storage.current⟩ := by
  obtain ⟨u, hu⟩ := transact_read_of_seeded hs
  exact congrArg Prod.fst (Option.some_inj.mp (h.symm.trans hu))

/-- A successful CONSTRUCT or RESET leaves a seeded engine with the cursor on the last ring word (R105, R111). -/
theorem exec_ok_cursor {i : Instr} {s t : State} (hi : i = .construct ∨ i = .reset) (h : exec i s = .next t)
    (hd : t.progress = .done) (hok : t.rspStatus = .ok) :
    t.seeded = true ∧ t.engineState.cursor = s.cycle - 1 := by
  rcases hi with rfl | rfl
  · obtain ⟨_, _, _, _, _, _, _, hrecord⟩ := exec_construct_ok h hd hok
    exact ⟨congrArg EngineState.seeded hrecord, congrArg EngineState.cursor hrecord⟩
  · cases exec_executed h with
    | unseeded => cases hok
    | reset hs => exact ⟨hs, lastIndex_toNat _⟩

/-- The ring of a successful CONSTRUCT ends with the last word that it drew (R104). -/
theorem exec_construct_lastDrawn {s t : State} (h : exec .construct s = .next t) (hd : t.progress = .done)
    (hok : t.rspStatus = .ok) {pre : List Answer} {v : Word} (he : s.entropy = pre ++ .word v :: t.entropy) :
    t.engineState.ring[s.cycle - 1]? = some v := by
  obtain ⟨rejected, c, words, _, _, hw, hs, hrecord⟩ := exec_construct_ok h hd hok
  have hring : t.engineState.ring = words := congrArg EngineState.ring hrecord
  obtain rfl | ⟨init, w, rfl⟩ := words.eq_nil_or_concat'
  · exact absurd hw (Nat.two_pow_pos _).ne
  · have hdrawn : rejected.map .word ++ .word c :: init.map .word ++ [.word w] = pre ++ [Answer.word v] := by
      apply List.append_cancel_right (bs := t.entropy)
      simpa using hs.symm.trans he
    have hlast : w = v := by simpa using List.append_inj_right' hdrawn rfl
    rw [hring, ← hw, ← List.getLast?_eq_getElem?, List.getLast?_concat, hlast]

theorem exec_advance_of_seeded {s : State} (h : s.seeded = true) :
    exec .advance s = .next ((s.withStorage s.storage.advance).respond .ok 0#32 s.build.latency.advance) := by
  rw [exec_advance, State.ifSeeded_of_seeded h]

/-- An ADVANCE answers no data and leaves the word that it wrote at the cursor, where READ finds it (R132, R145). -/
theorem transact_advance_of_seeded {s : State} (h : s.seeded = true) :
    ∃ t : State, transact .advance s = some (⟨.ok, 0#32⟩, t) ∧ t.seeded = true ∧ t.storage.current =
      Config.subtrahend - (mwcStep (s.storage.readRing (s.storage.cursor + 1#_)) s.storage.carry).1 :=
  ⟨_, transact_of_done (exec_advance_of_seeded h) rfl, h, s.storage.advance_current⟩

/-- Settles O8: the cursor stands on the last ring word after CONSTRUCT and RESET, on the written word after ADVANCE. -/
theorem readReturnsTheNewestWord : Obligations.ReadReturnsTheNewestWord := by
  refine ⟨fun i s t u r hi ht hread => ?_, fun s hs => ?_⟩
  · obtain ⟨t', hexec, hd, hrsp, rfl⟩ := exec_of_transact ht
    have hok : t'.rspStatus = .ok := (congrArg Response.status hrsp).symm
    obtain ⟨hseeded, hcursor⟩ := exec_ok_cursor hi hexec hd hok
    have hshown : t'.engineState.ring[s.cycle - 1]? = some t'.storage.current := hcursor ▸ t'.engineState_current
    obtain rfl := response_of_transact_read (s := t'.takeResponse) hseeded hread
    refine ⟨rfl, hshown.symm, ?_⟩
    rintro pre v post rfl he rfl
    exact Option.some_inj.mp (hshown.symm.trans (exec_construct_lastDrawn hexec hd hok he))
  · obtain ⟨t, ht, hseeded, hword⟩ := transact_advance_of_seeded hs
    obtain ⟨u, hu⟩ := transact_read_of_seeded hseeded
    rw [hword] at hu
    exact ⟨t, u, ht, hu⟩

end Sys2Proof.Machine
end

section
/-! PROOFS. The arithmetic of ADVANCE on naturals (spec/42_advance.md R143, R144, R147, R148), and what ADVANCE makes of the
state with it (R141). -/

namespace Sys2Proof.Machine

open Sys2Proof

/-! ### The sum of step 4 and its wrap -/

theorem hi32_mwcProduct_toNat (q c : Word) : (hi32 (mwcProduct q c)).toNat = mwcProduct q c / 2 ^ 32 :=
  hi32_toNat ((mwcProduct_le q c).trans_lt (by decide))

/-- R147 item 2. -/
theorem hi32_mwcProduct_le (q c : Word) : (hi32 (mwcProduct q c)).toNat ≤ 18782 := by
  have hle := mwcProduct_le q c
  rw [hi32_mwcProduct_toNat]
  omega

/-- R147 item 3: a high half of `a` leaves room below `2^32` for the low half. -/
theorem lo32_mwcProduct_le {q c : Word} (h : (hi32 (mwcProduct q c)).toNat = 18782) :
    (lo32 (mwcProduct q c)).toNat ≤ 2 ^ 32 - 18783 := by
  have hle := mwcProduct_le q c
  rw [hi32_mwcProduct_toNat] at h
  rw [lo32_toNat]
  omega

theorem not_mwcWraps_of_hi32 {q c : Word} (h : (hi32 (mwcProduct q c)).toNat = 18782) :
    ¬ mwcWraps (mwcProduct q c) = true := by
  have hlo := lo32_mwcProduct_le h
  rw [mwcWraps_iff]
  omega

theorem hi32_le_of_mwcWraps {q c : Word} (h : mwcWraps (mwcProduct q c) = true) :
    (hi32 (mwcProduct q c)).toNat ≤ 18781 :=
  Nat.le_of_lt_succ ((hi32_mwcProduct_le q c).lt_of_ne fun he => not_mwcWraps_of_hi32 he h)

theorem mwcSum_toNat (t : Nat) : (mwcSum t).toNat = ((lo32 t).toNat + (hi32 t).toNat) % 2 ^ 32 :=
  BitVec.toNat_add _ _

theorem mwcSum_lt_of_mwcWraps {t : Nat} (h : mwcWraps t = true) : (mwcSum t).toNat < (hi32 t).toNat :=
  BitVec.lt_def.mp (of_decide_eq_true h)

/-- What is lost from the sum that wraps. -/
theorem mwcSum_toNat_of_wraps {t : Nat} (h : mwcWraps t = true) :
    (mwcSum t).toNat + 2 ^ 32 = (lo32 t).toNat + (hi32 t).toNat := by
  have hsum := (mwcWraps_iff t).mp h
  have hlo := (lo32 t).isLt
  have hhi := (hi32 t).isLt
  rw [mwcSum_toNat]
  omega

theorem mwcSum_toNat_of_not_wraps {t : Nat} (h : ¬ mwcWraps t = true) :
    (mwcSum t).toNat = (lo32 t).toNat + (hi32 t).toNat := by
  rw [mwcSum_toNat, Nat.mod_eq_of_lt (Nat.lt_of_not_le (mt (mwcWraps_iff t).mpr h))]

/-! ### The corrected pair -/

/-- Neither correction wraps (R147). -/
theorem mwcStep_toNat_of_wraps {q c : Word} (h : mwcWraps (mwcProduct q c) = true) :
    (mwcStep q c).1.toNat = (mwcSum (mwcProduct q c)).toNat + 1 ∧
      (mwcStep q c).2.toNat = (hi32 (mwcProduct q c)).toNat + 1 := by
  have hhi := hi32_le_of_mwcWraps h
  have hsum := mwcSum_lt_of_mwcWraps h
  rw [mwcStep_of_wraps h, BitVec.toNat_add, BitVec.toNat_add, BitVec.toNat_ofNat]
  omega

theorem mwcStep_toNat_of_not_wraps {q c : Word} (h : ¬ mwcWraps (mwcProduct q c) = true) :
    (mwcStep q c).1.toNat = (mwcSum (mwcProduct q c)).toNat ∧
      (mwcStep q c).2.toNat = (hi32 (mwcProduct q c)).toNat := by
  rw [mwcStep_of_not_wraps h]
  exact ⟨rfl, rfl⟩

/-- The pair of step 4 as R144 computes it on naturals. -/
theorem mwcStep_toNat (q c : Word) :
    let hi := mwcProduct q c / 2 ^ 32
    let x := (mwcProduct q c % 2 ^ 32 + hi) % 2 ^ 32
    (mwcStep q c).1.toNat = (if x < hi then x + 1 else x) ∧ (mwcStep q c).2.toNat = (if x < hi then hi + 1 else hi) := by
  intro hi x
  have hhi : (hi32 (mwcProduct q c)).toNat = hi := hi32_mwcProduct_toNat q c
  have hx : (mwcSum (mwcProduct q c)).toNat = x := by rw [mwcSum_toNat, lo32_toNat, hhi]
  have htest : mwcWraps (mwcProduct q c) = true ↔ x < hi := by
    rw [mwcWraps, decide_eq_true_iff, BitVec.lt_def, hx, hhi]
  by_cases hw : mwcWraps (mwcProduct q c) = true
  · rw [if_pos (htest.mp hw), if_pos (htest.mp hw), ← hx, ← hhi]
    exact mwcStep_toNat_of_wraps hw
  · rw [if_neg (mt htest.mpr hw), if_neg (mt htest.mpr hw), ← hx, ← hhi]
    exact mwcStep_toNat_of_not_wraps hw

/-- R148: what the sum lost by wrapping the two corrections give back. -/
theorem mwcStep_decomposes (q c : Word) :
    mwcProduct q c = (mwcStep q c).2.toNat * (2 ^ 32 - 1) + (mwcStep q c).1.toNat := by
  have hhi := hi32_mwcProduct_toNat q c
  have hlo := lo32_toNat (mwcProduct q c)
  by_cases hw : mwcWraps (mwcProduct q c) = true
  · have hsum := mwcSum_toNat_of_wraps hw
    obtain ⟨hx, hc⟩ := mwcStep_toNat_of_wraps hw
    omega
  · have hsum := mwcSum_toNat_of_not_wraps hw
    obtain ⟨hx, hc⟩ := mwcStep_toNat_of_not_wraps hw
    omega

/-- Settles O12. -/
theorem correctionExactlyOnWrap : Obligations.CorrectionExactlyOnWrap :=
  fun q c => mwcWraps_iff (mwcProduct q c)

/-- Settles O10: the bounds of the datapath, and the carry that an ADVANCE of a seeded engine leaves. -/
theorem multiplyCarryBounds : Obligations.MultiplyCarryBounds := by
  refine ⟨fun q c => ⟨mwcProduct_le q c, by decide, hi32_mwcProduct_toNat q c, hi32_mwcProduct_le q c, fun hhi => ?_,
    fun hw => ?_, mwcStep_carry_le q c⟩, fun s t hs h => ?_⟩
  · exact ⟨eq_false_of_ne_true (not_mwcWraps_of_hi32 hhi), lo32_mwcProduct_le hhi⟩
  · have hhi := hi32_le_of_mwcWraps hw
    have hsum := mwcSum_lt_of_mwcWraps hw
    obtain ⟨hx, _⟩ := mwcStep_toNat_of_wraps hw
    exact ⟨hhi, hsum, hx, hx ▸ hsum.trans_le hhi⟩
  · obtain rfl : _ = t := Host.Outcome.next.inj ((exec_advance_of_seeded hs).symm.trans h)
    have hle := mwcStep_carry_le (s.storage.readRing (s.storage.cursor + 1#_)) s.storage.carry
    refine ⟨hle, fun i hi => Nat.testBit_lt_two_pow ?_⟩
    calc _ ≤ 18782 := hle
      _ < 2 ^ 15 := by decide
      _ ≤ 2 ^ i := Nat.pow_le_pow_right two_pos hi

/-! ### ADVANCE on the state -/

/-- Step 5 undone (R145): the word written gives `x` back. -/
theorem subtrahend_sub_sub (x : Word) : 0xFFFFFFFE#32 - (Config.subtrahend - x) = x :=
  sub_sub_cancel _ x

/-- Settles O11: the decomposition of the datapath, with `x` recovered from the word at the new cursor. -/
theorem advanceDecomposesExactly : Obligations.AdvanceDecomposesExactly := by
  refine ⟨fun s hs => ⟨_, exec_advance_of_seeded hs, ?_⟩, fun q c => ⟨mwcStep_decomposes q c, ?_, ?_⟩, by decide⟩
  · have hword := s.storage.advance_current
    have hx := subtrahend_sub_sub (mwcStep (s.storage.readRing (s.storage.cursor + 1#_)) s.storage.carry).1
    rw [← hword] at hx
    exact (mwcStep_decomposes _ _).trans (congrArg (_ + BitVec.toNat ·) hx.symm)
  · exact Nat.le_of_lt_succ (mwcStep q c).1.isLt
  · rw [mwcStep_decomposes]
    exact (Nat.mul_add_mod_self_right _ _ _).symm

/-- R142: the cursor moves by one modulo CYCLE. -/
theorem Storage.advance_cursor_toNat {k : Nat} (st : Storage k) :
    st.advance.cursor.toNat = (st.cursor.toNat + 1) % 2 ^ k := by
  rw [Storage.advance_cursor, BitVec.toNat_add, BitVec.toNat_ofNat, Nat.add_mod_mod]

/-- The storage after an ADVANCE, with the index as a number. -/
theorem Storage.advance_eq {k : Nat} (st : Storage k) {i : Nat} (hi : i < 2 ^ k) (h : st.advance.cursor.toNat = i) :
    st.advance = { st with
      ring := st.ring.set i (Config.subtrahend - (mwcStep st.ring[i] st.carry).1) hi
      carry := (mwcStep st.ring[i] st.carry).2
      cursor := BitVec.ofNat k i } := by
  subst h
  rw [BitVec.ofNat_toNat, BitVec.setWidth_eq]
  rfl

/-- Step 5 (R145) on naturals. -/
theorem subtrahend_sub_eq_ofNat (x : Word) :
    Config.subtrahend - x = BitVec.ofNat 32 ((0xFFFFFFFE + 2 ^ 32 - x.toNat) % 2 ^ 32) := by
  have hx := x.isLt
  apply BitVec.eq_of_toNat_eq
  rw [Config.subtrahend, BitVec.toNat_sub, BitVec.toNat_ofNat, BitVec.toNat_ofNat]
  omega

/-- Settles O9: the storage that ADVANCE leaves, with the datapath's words as the naturals of R141. -/
theorem advanceCompletes : Obligations.AdvanceCompletes := by
  refine ⟨fun s hs => ?_, fun s hs => exec_advance_of_unseeded hs⟩
  intro cursor' q t c x x' c'
  obtain ⟨hx, hc⟩ := mwcStep_toNat (s.storage.ring[cursor'.val]'cursor'.isLt) s.storage.carry
  have hcarry := congrArg (BitVec.ofNat 32) hc
  rw [BitVec.ofNat_toNat, BitVec.setWidth_eq] at hcarry
  rw [exec_advance_of_seeded hs, s.storage.advance_eq cursor'.isLt s.storage.advance_cursor_toNat,
    subtrahend_sub_eq_ofNat, hx, hcarry]
  rfl

end Sys2Proof.Machine
end

section
/-! PROOFS. Many ADVANCE commands (spec/42_advance.md R142, R149): each overwrites the oldest ring word, which is then the
newest, and so a word is read again CYCLE commands after it was written. -/

namespace Sys2Proof.Machine

open Sys2Proof

/-! ### The storage after many ADVANCE commands -/

/-- The word after the cursor, the oldest one of the ring: what the next ADVANCE reads and overwrites (R142). -/
def Storage.oldest {k : Nat} (st : Storage k) : Word := st.readRing (st.cursor + 1#k)

theorem Storage.advance_readRing_other {k : Nat} (st : Storage k) {i : BitVec k} (h : i ≠ st.cursor + 1#k) :
    st.advance.readRing i = st.readRing i :=
  st.readRing_writeRing_other _ h

theorem Storage.advances_cursor {k : Nat} (st : Storage k) (n : Nat) :
    (Storage.advance^[n] st).cursor = st.cursor + BitVec.ofNat k n := by
  induction n with
  | zero => exact (BitVec.add_zero _).symm
  | succ n ih => rw [Function.iterate_succ_apply', Storage.advance_cursor, ih, BitVec.ofNat_add, BitVec.add_assoc]

/-- Distances below CYCLE name distinct ring words. -/
theorem add_ofNat_ne {k : Nat} (i : BitVec k) {m n : Nat} (hmn : m < n) (hn : n < 2 ^ k) :
    i + BitVec.ofNat k n ≠ i + BitVec.ofNat k m := by
  intro h
  have hnat := congrArg BitVec.toNat (add_left_cancel h)
  rw [BitVec.toNat_ofNat, BitVec.toNat_ofNat, Nat.mod_eq_of_lt hn, Nat.mod_eq_of_lt (hmn.trans hn)] at hnat
  exact hmn.ne' hnat

/-- The first `n` ADVANCE commands do not reach a word that lies `n` or more ahead of the oldest one (R142, R145). -/
theorem Storage.advances_readRing_ahead {k : Nat} (st : Storage k) {n d : Nat} (hn : n ≤ d) (hd : d < 2 ^ k) :
    (Storage.advance^[n] st).readRing (st.cursor + 1#k + BitVec.ofNat k d) =
      st.readRing (st.cursor + 1#k + BitVec.ofNat k d) := by
  induction n with
  | zero => rfl
  | succ n ih =>
    have hindex : st.cursor + 1#k + BitVec.ofNat k d ≠ (Storage.advance^[n] st).cursor + 1#k := by
      rw [st.advances_cursor, add_right_comm _ (BitVec.ofNat k n)]
      exact add_ofNat_ne _ hn hd
    rw [Function.iterate_succ_apply', Storage.advance_readRing_other _ hindex, ih (Nat.le_of_lt hn)]

/-- The words of the ring become the oldest one by one. -/
theorem Storage.advances_oldest {k : Nat} (st : Storage k) {n : Nat} (hn : n < 2 ^ k) :
    (Storage.advance^[n] st).oldest = st.readRing (st.cursor + 1#k + BitVec.ofNat k n) := by
  rw [Storage.oldest, st.advances_cursor, add_right_comm, st.advances_readRing_ahead le_rfl hn]

/-- `CYCLE - 1` advances to 0 (R142). -/
theorem lastIndex_add_one (k : Nat) : lastIndex k + 1#k = 0#k := by
  rw [lastIndex, ← BitVec.neg_one_eq_allOnes, BitVec.add_left_neg]

/-- The lag of the recurrence (R149): the word that an ADVANCE writes is the oldest again CYCLE commands later. -/
theorem Storage.advances_cycle_oldest {k : Nat} (st : Storage k) :
    (Storage.advance^[2 ^ k] st).oldest = Config.subtrahend - (mwcStep st.oldest st.carry).1 := by
  have hlt : 2 ^ k - 1 < 2 ^ k := Nat.sub_lt (Nat.two_pow_pos k) Nat.one_pos
  have hround : st.advance.cursor + 1#k + BitVec.ofNat k (2 ^ k - 1) = st.advance.cursor := by
    rw [← lastIndex_eq_ofNat, add_assoc, add_comm (1#k), lastIndex_add_one, BitVec.add_zero]
  calc (Storage.advance^[2 ^ k] st).oldest
    _ = (Storage.advance^[2 ^ k - 1] st.advance).oldest := by
      rw [← Function.iterate_succ_apply, Nat.succ_eq_add_one, Nat.sub_add_cancel (Nat.two_pow_pos k)]
    _ = st.advance.readRing st.advance.cursor := by rw [st.advance.advances_oldest hlt, hround]
    _ = Config.subtrahend - (mwcStep st.oldest st.carry).1 := st.advance_current

theorem Storage.advances_lag {k : Nat} (st : Storage k) (n : Nat) :
    (Storage.advance^[n + 2 ^ k] st).oldest =
      Config.subtrahend - (mwcStep (Storage.advance^[n] st).oldest (Storage.advance^[n] st).carry).1 := by
  rw [Nat.add_comm, Function.iterate_add_apply, Storage.advances_cycle_oldest]

/-- The word at the cursor after `n + 1` ADVANCE commands is the one that is read again after `n + CYCLE` (R149). -/
theorem Storage.advances_current {k : Nat} (st : Storage k) (n : Nat) :
    (Storage.advance^[n + 1] st).current = (Storage.advance^[n + 2 ^ k] st).oldest := by
  rw [st.advances_lag, Function.iterate_succ_apply']
  exact (Storage.advance^[n] st).advance_current

/-! ### The commands -/

/-- What an ADVANCE of a seeded engine leaves besides the storage, its response taken. -/
def State.advanceTaken (s : State) : State := (s.respond .ok 0#32 s.build.latency.advance).takeResponse

theorem transact_advance {s : State} (h : s.seeded = true) :
    transact .advance s = some (⟨.ok, 0#32⟩, s.advanceTaken.withStorage s.storage.advance) :=
  transact_of_done (exec_advance_of_seeded h) rfl

/-- One ADVANCE or more: the storage is advanced so often, and all else is as after one. -/
theorem transactAll_advances {s : State} (h : s.seeded = true) (n : Nat) :
    transactAll (List.replicate (n + 1) .advance) s =
      some (List.replicate (n + 1) ⟨.ok, 0#32⟩, s.advanceTaken.withStorage (Storage.advance^[n + 1] s.storage)) := by
  induction n generalizing s with
  | zero => exact transactAll_cons (transact_advance h) (transactAll_nil _)
  | succ n ih => exact transactAll_cons (transact_advance h) (ih h)

/-- Settles O13. -/
theorem advancesMoveTheCursor : Obligations.AdvancesMoveTheCursor := by
  intro n s hs
  cases n with
  | zero => exact ⟨_, _, transactAll_nil s, rfl, (Nat.mod_eq_of_lt s.storage.cursor.isLt).symm, hs⟩
  | succ n =>
    refine ⟨_, _, transactAll_advances hs n, rfl, ?_, hs⟩
    have hcursor := congrArg BitVec.toNat (s.storage.advances_cursor (n + 1))
    rw [BitVec.toNat_add, BitVec.toNat_ofNat, Nat.add_mod_mod] at hcursor
    exact hcursor

/-- Right after a CONSTRUCT or a RESET the next index is 0 (R105, R111, R142). -/
theorem Storage.advances_cursor_of_last {k : Nat} {st : Storage k} (h : st.cursor = lastIndex k) (n : Nat) :
    (Storage.advance^[n + 1] st).cursor = BitVec.ofNat k n := by
  rw [Function.iterate_succ_apply, Storage.advances_cursor, Storage.advance_cursor, h, lastIndex_add_one,
    BitVec.zero_add]

theorem Storage.advances_oldest_of_last {k : Nat} {st : Storage k} (h : st.cursor = lastIndex k) {n : Nat}
    (hn : n < 2 ^ k) : st.ring[n] = (Storage.advance^[n] st).oldest := by
  rw [st.advances_oldest hn, h, lastIndex_add_one, BitVec.zero_add, Storage.readRing]
  simp only [BitVec.toNat_ofNat, Nat.mod_eq_of_lt hn]

/-- What the `(n+1)`-th ADVANCE after a CONSTRUCT or a RESET leaves at the cursor (R149). -/
theorem transactAll_advances_of_last {s : State} (hs : s.seeded = true)
    (hlast : s.storage.cursor = lastIndex s.build.log2Cycle) (n : Nat) :
    ∃ t : State, transactAll (List.replicate (n + 1) .advance) s = some (List.replicate (n + 1) ⟨.ok, 0#32⟩, t) ∧
      t.seeded = true ∧ t.storage.carry = (Storage.advance^[n + 1] s.storage).carry ∧
      t.engineState.cursor = n % s.cycle ∧ t.storage.current = (Storage.advance^[n + s.cycle] s.storage).oldest :=
  ⟨_, transactAll_advances hs n, hs, rfl,
    (congrArg BitVec.toNat (Storage.advances_cursor_of_last hlast n)).trans (BitVec.toNat_ofNat _ _),
    s.storage.advances_current n⟩

/-- Settles O14: `y n` is the oldest ring word after `n` ADVANCE commands, and `c n` the carry. -/
theorem outputIsLagRecurrence : Obligations.OutputIsLagRecurrence := by
  intro s hs hlast
  have hring (j : Nat) (hj : j < s.cycle) :
      s.engineState.ring[j]? = some (Storage.advance^[j] s.storage).oldest := by
    rw [← Storage.advances_oldest_of_last hlast hj, State.engineState, Vector.getElem?_toList]
    exact Vector.getElem?_eq_getElem hj
  refine ⟨fun n => (Storage.advance^[n] s.storage).oldest, fun n => (Storage.advance^[n] s.storage).carry,
    hring, rfl, fun n => ?carry, s.storage.advances_lag, ?firstRead, fun n => ?advance⟩
  case carry => exact congrArg Storage.carry (Function.iterate_succ_apply' _ n _)
  case firstRead =>
    have hshown := s.engineState_current
    rw [State.cursor_of_lastIndex hlast, hring _ (Nat.sub_lt (Nat.two_pow_pos _) Nat.one_pos)] at hshown
    obtain ⟨t, hread⟩ := transact_read_of_seeded hs
    rw [← Option.some_inj.mp hshown] at hread
    exact ⟨t, hread⟩
  case advance =>
    obtain ⟨t, hrun, hseeded, hcarry, hcursor, hcurrent⟩ := transactAll_advances_of_last hs hlast n
    have hshown := t.engineState_current
    rw [hcursor, hcurrent] at hshown
    obtain ⟨u, hread⟩ := transact_read_of_seeded hseeded
    rw [hcurrent] at hread
    exact ⟨_, t, u, hrun, hcarry, hcursor, hshown, hread⟩

end Sys2Proof.Machine
end

section
/-! PROOFS. The two errors of a command (spec/60_exceptions.md R171 to R173), an edge at which an idle engine accepts nothing
(R180), and that the engine never traps (R170). -/

namespace Sys2Proof.Machine

open Sys2Proof

/-! ### NOT_SEEDED -/

/-- READ, ADVANCE and RESET with `SEEDED = 0`, each with its own latency (R171). -/
theorem exec_of_unseeded {i : Instr} {s : State} (hi : i ≠ .construct) (hs : s.seeded = false) :
    exec i s = .next (s.raise .notSeeded (latencyOf s.build i)) := by
  cases i with
  | read => exact exec_read_of_unseeded hs
  | advance => exact exec_advance_of_unseeded hs
  | reset => exact exec_reset_of_unseeded hs
  | construct => exact absurd rfl hi

/-- A finished CONSTRUCT has completed or failed (spec/40_construct_reset.md R105, R106): it has no third ending. -/
theorem exec_construct_ended {s t : State} (h : exec .construct s = .next t) (hd : t.progress = .done) :
    t.Constructed ∨ t.ConstructFailed := by
  cases exec_construct_outcome h with
  | waiting hp => exact absurd hd hp
  | completed hc => exact .inl hc
  | failed hf => exact .inr hf

/-- Settles O25. -/
theorem unseededCommandsAnswerNotSeeded : Obligations.UnseededCommandsAnswerNotSeeded := by
  refine ⟨fun i s hi hs => exec_of_unseeded hi hs, fun s t h hd hns => ?_⟩
  rcases exec_construct_ended h hd with hc | hf
  · cases hns.symm.trans hc.rspStatus
  · cases hns.symm.trans hf.rspStatus

/-! ### After ENTROPY_FAIL -/

theorem exec_construct_failed {s t : State} (h : exec .construct s = .next t) (hd : t.progress = .done)
    (hfail : t.rspStatus = .entropyFail) : t.ConstructFailed := by
  rcases exec_construct_ended h hd with hc | hf
  · cases hfail.symm.trans hc.rspStatus
  · exact hf

theorem transact_of_unseeded {i : Instr} {s : State} (hi : i ≠ .construct) (hs : s.seeded = false) :
    ∃ t : State, transact i s = some (⟨.notSeeded, 0#32⟩, t) ∧ t.seeded = false ∧ t.engineState = s.engineState :=
  ⟨_, transact_of_done (exec_of_unseeded hi hs) (s.raise_notSeeded_progress _), hs, rfl⟩

/-- As long as no CONSTRUCT comes, an unseeded engine answers `NOT_SEEDED` and keeps its record (R171, R173). -/
theorem transactAll_of_unseeded {cmds : List Instr} {s : State} (hc : .construct ∉ cmds) (hs : s.seeded = false) :
    ∃ t : State, transactAll cmds s = some (List.replicate cmds.length ⟨.notSeeded, 0#32⟩, t) ∧
      t.engineState = s.engineState := by
  induction cmds generalizing s with
  | nil => exact ⟨s, transactAll_nil s, rfl⟩
  | cons i cmds ih =>
    obtain ⟨t, hi, ht, hrecord⟩ := transact_of_unseeded (List.ne_of_not_mem_cons hc).symm hs
    obtain ⟨u, hcmds, hrecord'⟩ := ih (List.not_mem_of_not_mem_cons hc) ht
    exact ⟨u, transactAll_cons hi hcmds, hrecord'.trans hrecord⟩

/-- Settles O26: the failed CONSTRUCT leaves `SEEDED = 0` and `FATAL = 1` in the record, and the commands keep it. -/
theorem onlyConstructRecovers : Obligations.OnlyConstructRecovers := by
  refine fun s s0 hfail => ⟨fun cmds hc => ?others, fun s1 hok => ?construct⟩
  case others =>
    obtain ⟨t, ht, hd, hrsp, rfl⟩ := exec_of_transact hfail
    have hfailed := exec_construct_failed ht hd (congrArg Response.status hrsp).symm
    obtain ⟨s1, hrun, hrecord⟩ := transactAll_of_unseeded (s := t.takeResponse) hc hfailed.seeded
    have hfatal : s1.fatal = t.fatal := congrArg EngineState.fatal hrecord
    exact ⟨s1, hrun, hrecord, hfatal.trans hfailed.fatal⟩
  case construct =>
    obtain ⟨t, ht, hd, hrsp, rfl⟩ := exec_of_transact hok
    have hconstructed := exec_construct_constructed ht hd (congrArg Response.status hrsp).symm
    exact ⟨hconstructed.fatal, hconstructed.seeded⟩

/-! ### An idle engine -/

theorem State.edgeEvent_of_idle {s : State} {p : Pins} (hb : s.busy = false) (hr : p.rstN = true)
    (hv : p.cmdValid = false) : s.edgeEvent p = .quiet := by
  simp [State.edgeEvent, hr, hv, State.rspValid_of_idle hb, State.entReady_of_idle hb]

/-- No latency runs down where no command is in progress (R211). -/
theorem State.quietEdge_of_idle {s : State} (hb : s.busy = false) : s.quietEdge = s := by
  have hw : (if s.busy && decide (s.progress = .done) then s.wait - 1 else s.wait) = s.wait := by simp [hb]
  rw [State.quietEdge, hw]

/-- Settles O41. -/
theorem idleKeepsItsState : Obligations.IdleKeepsItsState := by
  intro s hb hr hv
  rw [step_of_quiet (State.edgeEvent_of_idle hb hr hv), State.quietEdge_of_idle (s := s.nextEdge) hb]
  rfl

/-! ### Nothing traps -/

/-- Every handshake leaves a next state, because every command does (R170, R90). -/
theorem step_next (s : State) : ∃ t : State, step s = .next t := by
  cases hev : s.edgeEvent s.pins with
  | powerOn => exact ⟨_, step_of_powerOn hev⟩
  | accept op =>
    rw [step_of_accept hev]
    exact exec_next (decode op) s.nextEdge
  | take => exact ⟨_, step_of_take hev⟩
  | answer a => exact ⟨_, step_of_answer hev⟩
  | quiet => exact ⟨_, step_of_quiet hev⟩

theorem runEdges_next (n : Nat) (s : State) : ∃ t : State, runEdges n s = .next t := by
  induction n generalizing s with
  | zero => exact ⟨s, runEdges_zero s⟩
  | succ n ih =>
    obtain ⟨t, ht⟩ := step_next s
    rw [runEdges_succ ht]
    exact ih t

/-- Settles O42. -/
theorem nothingTraps : Obligations.NothingTraps := ⟨step_next, exec_next, runEdges_next⟩

end Sys2Proof.Machine
end

section
/-! PROOFS. What an engine does while it waits (spec/70_reset_and_hazards.md): for the entropy source (R209), through the latency
of a command (R211), and at the power-on reset that ends either (R200, R201). -/

namespace Sys2Proof.Machine

open Sys2Proof

/-! ### Power-on reset -/

/-- `rst_n` is looked at before the handshakes (spec/60_exceptions.md R176 item 1). -/
theorem State.edgeEvent_of_low {s : State} {p : Pins} (hr : p.rstN = false) : s.edgeEvent p = .powerOn := if_pos hr

theorem State.outputs_of_powerOn (b : Build) (n : Nat) (es : List Answer) (ps : List Pins) :
    (State.powerOn b n es ps).outputs true = ⟨true, none, false, 0b000#3⟩ := by
  have hstatus : (State.powerOn b n es ps).status = 0b000#3 := by simp [State.status, State.powerOn]
  rw [Outputs.mk.injEq]
  exact ⟨rfl, rfl, rfl, hstatus⟩

/-- Settles O40. -/
theorem powerOnOverridesEverything : Obligations.PowerOnOverridesEverything := fun _ hr =>
  ⟨_, step_of_powerOn (State.edgeEvent_of_low hr), rfl, rfl, rfl, rfl, rfl, rfl, State.outputs_of_powerOn _ _ _ _⟩

/-! ### Waiting for the entropy source -/

@[simp] theorem State.afterDraws_busy (s : State) (drawn : List Word) : (s.afterDraws drawn).busy = true := by
  cases drawn <;> rfl

@[simp] theorem State.afterDraws_seeded (s : State) (drawn : List Word) : (s.afterDraws drawn).seeded = false := by
  cases drawn <;> rfl

/-- `FATAL` waits for the end of the command (spec/00_scope.md R16). -/
@[simp] theorem State.afterDraws_fatal (s : State) (drawn : List Word) : (s.afterDraws drawn).fatal = s.fatal := by
  cases drawn <;> rfl

@[simp] theorem State.afterDraws_freeCount (s : State) (drawn : List Word) :
    (s.afterDraws drawn).freeCount = s.freeCount := by
  cases drawn <;> rfl

/-- The other pins have no effect on a draw that the source leaves unanswered: no command can be accepted, and no response is
there to be taken. -/
theorem step_unanswered_of_drawing {s : State} (hb : s.busy = true) (hp : s.progress ≠ .done) {p : Pins}
    (hr : p.rstN = true) (hv : p.entValid = false) (ps : List Pins) :
    step (s.withInputs (p :: ps)) = .next (s.withInputs ps) := by
  have hev : (s.withInputs (p :: ps)).edgeEvent p = .quiet := by
    have hrsp : (s.withInputs (p :: ps)).rspValid true = false := State.rspValid_of_drawing hp true
    simp [State.edgeEvent, State.cmdReady_of_busy, hb, hr, hv, hrsp]
  rw [step_of_quiet hev, State.withInputs_nextEdge, State.quietEdge_of_drawing (s := s.withInputs ps) hp]

/-- The wait has no end of its own (R209). -/
theorem runEdges_unanswered_of_drawing {s : State} (hb : s.busy = true) (hp : s.progress ≠ .done) {ps : List Pins}
    (hps : ∀ p ∈ ps, p.rstN = true ∧ p.entValid = false) :
    runEdges ps.length (s.withInputs ps) = .next (s.withInputs []) := by
  induction ps with
  | nil => rfl
  | cons p ps ih =>
    obtain ⟨⟨hr, hv⟩, htail⟩ := List.forall_mem_cons.mp hps
    rw [List.length_cons, runEdges_succ (step_unanswered_of_drawing hb hp hr hv ps), ih htail]

/-- An outstanding draw shows `BUSY` and `ent_ready`, and no response (R42, R86, R88). -/
theorem State.outputs_of_drawing {s : State} (hb : s.busy = true) (hs : s.seeded = false) (hp : s.progress ≠ .done) :
    s.outputs true = ⟨false, none, true, BitVec.ofBool s.fatal ++ 0b01#2⟩ := by
  have hready : s.entReady true = true := s.entReady_true_iff.mpr ⟨hb, hp⟩
  have hstatus : s.status = BitVec.ofBool s.fatal ++ 0b01#2 := by
    rw [State.status, hs, hb]
    cases s.fatal <;> rfl
  rw [Outputs.mk.injEq]
  exact ⟨State.cmdReady_of_busy hb true, State.outputs_rsp_eq_none (State.rspValid_of_drawing hp true), hready, hstatus⟩

/-- Settles O20. -/
theorem constructWaitsForTheSource : Obligations.ConstructWaitsForTheSource := by
  intro s rejected drawn hr hd hlen he
  have hbusy := s.afterDraws_busy drawn
  have hdraw := s.afterDraws_progress drawn
  have hseeded := s.afterDraws_seeded drawn
  have hfatal := s.afterDraws_fatal drawn
  refine ⟨_, exec_construct_waits hr hd hlen he, hbusy, hdraw, hseeded, hfatal, s.afterDraws_build drawn, rfl,
    s.afterDraws_inputs drawn, s.afterDraws_freeCount drawn, fun n ps hn hps => ?_⟩
  subst hn
  refine ⟨_, runEdges_unanswered_of_drawing (s := { s.afterDraws drawn with entropy := [] }) hbusy hdraw hps, rfl, ?_⟩
  rw [← hfatal]
  exact State.outputs_of_drawing hbusy hseeded hdraw

/-! ### The latency of READ, ADVANCE and RESET -/

/-- No command reads the pin samples to come. -/
theorem exec_withInputs {i : Instr} {s t : State} (h : exec i s = .next t) (ps : List Pins) :
    exec i (s.withInputs ps) = .next (t.withInputs ps) := by
  cases exec_executed h with
  | unseeded hi hs => exact exec_of_unseeded (s := s.withInputs ps) hi hs
  | read hs => exact exec_read_of_seeded (s := s.withInputs ps) hs
  | advance hs => exact exec_advance_of_seeded (s := s.withInputs ps) hs
  | reset hs => exact exec_reset_of_seeded (s := s.withInputs ps) hs
  | construct =>
    rw [exec_construct, State.beginConstruct_withInputs, State.drain_withInputs]
    rfl

/-- Each command starts its own latency, whether it answers `OK` or `NOT_SEEDED` (R211). -/
theorem exec_wait_of_ne_construct {i : Instr} {s t : State} (hi : i ≠ .construct) (h : exec i s = .next t) :
    t.wait = latencyOf s.build i := by
  cases exec_executed h with
  | unseeded | read | advance | reset => rfl
  | construct => exact absurd rfl hi

/-- An idle engine runs the command on its pins (R84). -/
theorem step_commandEdge {i : Instr} {s t : State} (hb : s.busy = false) (h : exec i s = .next t) {ps : List Pins}
    (hin : s.inputs = commandEdge (encode i) :: ps) : step s = .next (t.withInputs ps) := by
  have hstep := stepRunsTheAcceptedCommand s _ ps hin rfl rfl hb
  have hop : decode (commandEdge (encode i)).cmdOp = i := decode_encode i
  rw [hstep, hop]
  exact exec_withInputs h ps

/-- Until the latency has passed there is no response to take, so no pin but `rst_n` counts. -/
theorem step_of_latency {s : State} (hb : s.busy = true) (hd : s.progress = .done) (hw : s.wait ≠ 0) {p : Pins}
    (hr : p.rstN = true) (ps : List Pins) :
    step (s.withInputs (p :: ps)) = .next (State.withInputs { s with wait := s.wait - 1 } ps) := by
  have hev : (s.withInputs (p :: ps)).edgeEvent p = .quiet := by
    have hwait : (s.withInputs (p :: ps)).wait ≠ 0 := hw
    simp [State.edgeEvent, State.cmdReady_of_busy, State.rspValid, State.entReady_of_done, hb, hd, hwait, hr]
  have hquiet : s.quietEdge = { s with wait := s.wait - 1 } := by simp [State.quietEdge, hb, hd]
  rw [step_of_quiet hev, ← hquiet]
  rfl

/-- Each edge within the latency takes one off it (R211). -/
theorem runEdges_of_latency {s : State} (hb : s.busy = true) (hd : s.progress = .done) {ps : List Pins}
    (hr : ∀ p ∈ ps, p.rstN = true) (hlen : ps.length ≤ s.wait) (rest : List Pins) :
    runEdges ps.length (s.withInputs (ps ++ rest)) =
      .next (State.withInputs { s with wait := s.wait - ps.length } rest) := by
  induction ps generalizing s with
  | nil => rfl
  | cons p ps ih =>
    obtain ⟨hhead, htail⟩ := List.forall_mem_cons.mp hr
    rw [List.length_cons] at hlen ⊢
    have hw : s.wait ≠ 0 := by omega
    have hrest : ps.length ≤ s.wait - 1 := by omega
    rw [List.cons_append, runEdges_succ (step_of_latency hb hd hw hhead _),
      ih (s := { s with wait := s.wait - 1 }) hb hd htail hrest, Nat.sub_sub, Nat.add_comm 1]

/-- A finished command shows its response exactly where its latency has passed (R86, R211). -/
theorem State.outputs_rsp_of_done {s : State} (hb : s.busy = true) (hd : s.progress = .done) :
    (s.outputs true).rsp = if s.wait = 0 then some ⟨s.rspStatus, s.rspData⟩ else none := by
  simp [State.outputs, State.rspValid_true_iff, hb, hd]

/-- Settles O38. -/
theorem responseAppearsAfterLatency : Obligations.ResponseAppearsAfterLatency := by
  intro i s ps rest hi hb hin hr hlen
  obtain ⟨u, hu⟩ := exec_next i s
  have hbusy : u.busy = true := exec_busy hu
  have hdone : u.progress = .done := exec_done_of_ne_construct hi hu
  have hwait : u.wait = latencyOf s.build i := exec_wait_of_ne_construct hi hu
  rw [← hwait] at hlen ⊢
  have hrun : runEdges (1 + ps.length) s = .next { u with inputs := rest, wait := u.wait - ps.length } := by
    rw [Nat.add_comm, runEdges_succ (step_commandEdge hb hu hin), runEdges_of_latency hbusy hdone hr hlen rest]
    rfl
  refine ⟨u, hu, hrun, fun t ht => ?_⟩
  cases hrun.symm.trans ht
  have hpassed : u.wait - ps.length = 0 ↔ ps.length = u.wait := by omega
  refine ⟨hbusy, (State.outputs_rsp_of_done (s := { u with inputs := rest, wait := _ }) hbusy hdone).trans ?_⟩
  simp only [hpassed]

end Sys2Proof.Machine
end
